-- ==== Sys2Proof/Word.lean ====
section
/-! DEFINITION. The value types of the spec's notation (00_scope.md R9) and its two
enumerations, the line level and the line direction (R10). Their numeric codes are in
Machine/Operands.lean. -/

namespace Sys2Proof

/-- `u8` of R9: the pin identifier, the frame bytes, the byte accumulator. -/
abbrev Byte := BitVec 8

/-- `u16` of R9: the host command word, the two cached fields. -/
abbrev Word16 := BitVec 16

/-- `Level` of R9, R10: a level of the I/O line. -/
inductive Level where
  | low
  | high
  deriving DecidableEq, Repr, Inhabited

/-- `Mode` of R9, R10: a direction of the I/O line, IN or OUT. -/
inductive Mode where
  | input
  | output
  deriving DecidableEq, Repr

end Sys2Proof
end

