-- ==== Sys2Proof/Config.lean ====
section
/-! DEFINITION. What one implementation fixes (the OPEN parameters of 00_scope.md R6) and the
values the spec leaves free. Every `opaque` here has no body: no proof can see its value, so a
claim holds whatever it is. The normative constants of R6 and R8 are in Machine/Constants.lean. -/

namespace Sys2Proof

/-- `INPUT_PULL` of R6 (D17): what IN means to the platform. No rule uses it. -/
inductive InputPull where
  | pullUp
  | floating
  deriving DecidableEq, Repr, Inhabited

/-- The OPEN parameters of R6. They are configuration, not state (10_state.md R23): fixed before
power-on, written by no operation. -/
structure Parameters where
  /-- `TIMEOUT`, the coarse ceiling. R7 refuses a value below 10. -/
  timeout : Nat
  /-- `SAMPLER_TICK_US`, the argument of the sampler's delay (R145). -/
  samplerTickUs : Nat
  /-- `DURATION_TICK_US`, the argument of the discriminator's delay (R168). -/
  durationTickUs : Nat
  /-- `INPUT_PULL`. -/
  inputPull : InputPull
  deriving DecidableEq, Repr

/-- How far the configured `TIMEOUT` lies above 10, the least value R7 and R233 allow. OPEN (D5). -/
opaque Config.timeoutAboveTen : Nat

/-- The configured `SAMPLER_TICK_US`. OPEN (D9). -/
opaque Config.samplerTickUs : Nat

/-- The configured `DURATION_TICK_US`. OPEN (D9). -/
opaque Config.durationTickUs : Nat

/-- The configured `INPUT_PULL`. OPEN (D17). -/
opaque Config.inputPull : InputPull

/-- The configuration fixed before power-on (R6, R233).
DESIGN CHOICE, log entry 4, safe: its values are free, with `TIMEOUT >= 10` as R233 demands. -/
def Config.parameters : Parameters where
  timeout := Config.timeoutAboveTen + 10
  samplerTickUs := Config.samplerTickUs
  durationTickUs := Config.durationTickUs
  inputPull := Config.inputPull

/-- The level the environment answers to `LineRead` number `n` of a core, made on `pin`, once the levels
listed in the state are used up: unconstrained, as R12 and D18 have it. That it is one function of the pin
and the number of the read is the model's choice, so two runs of one pin that have made equally many reads
and list no level read the same one. DESIGN CHOICE, log entry 3: safe for a claim about one run, unsafe for
a claim that compares two. -/
opaque Config.lineDraw (pin : Byte) (n : Nat) : Level

/-- What a read of an element that holds no value gives. R232 makes such a read impossible by
construction, so it happens only in states no run reaches. Log entry 2, safe. -/
opaque Config.noValue (n : Nat) : Nat

/-- The pin a capability call names while PIN holds no value. No run makes such a call, since only
CONSTRUCT calls before a handle exists, and it writes PIN first (10_state.md R22, R232). Log entry 2, safe. -/
opaque Config.noPin : Byte

end Sys2Proof
end

