-- ==== Sys2Proof/Machine/Constants.lean ====
section
/-! DEFINITION. The normative constants of 00_scope.md R6 and R8, and the fine ceiling derived
from the coarse one. -/

namespace Sys2Proof.Machine

/-- `BIT_THRESHOLD`, in ticks. -/
def bitThreshold : Nat := 3

/-- `WAKE_US`, in microseconds. -/
def wakeUs : Nat := 1000

/-- `SETTLE_US`, in microseconds. -/
def settleUs : Nat := 10

/-- `FINE_TIMEOUT = TIMEOUT div 10`, rounding toward zero (R6, D6). -/
def fineTimeout (p : Parameters) : Nat := p.timeout / 10

end Sys2Proof.Machine
end

