-- ==== Sys2Proof/Syntax.lean ====
section
/-! DEFINITION. The host command set CORE-OPS version 1 (00_scope.md R2; 30_encoding.md R71):
one constructor per row of the opcode table. -/

namespace Sys2Proof

/-- The four host commands of R71. -/
inductive Instr where
  /-- CONSTRUCT pin (R103). -/
  | construct (pin : Byte)
  /-- UPDATE (R104). -/
  | update
  /-- LAST_T (R105). -/
  | lastT
  /-- LAST_H (R106). -/
  | lastH
  deriving DecidableEq, Repr

/-- What the decoder of R74 answers: `Command | Illegal`, the illegal word with it. -/
inductive Decoded where
  | command (i : Instr)
  | illegal (w : Word16)
  deriving DecidableEq, Repr

end Sys2Proof
end

