-- ==== Sys2Proof/WellFormed.lean ====
section
/-! DEFINITION. Which commands, configurations and host programs are well formed. -/

namespace Sys2Proof

/-- Every command that can be written is well formed: the only operand is CONSTRUCT's pin, and "no
value of PIN is illegal" (10_state.md R22, 30_encoding.md R72). -/
def Instr.wf : Instr → Bool
  | .construct _ => true
  | .update => true
  | .lastT => true
  | .lastH => true

/-- A configuration the model gives a meaning (00_scope.md R7, 70_reset_and_hazards.md R233). -/
def Parameters.wf (p : Parameters) : Bool := decide (10 ≤ p.timeout)

/-- The command words that R73 does not call illegal. -/
def legalWord (w : Word16) : Bool :=
  let opc := w.extractLsb' 0 8
  let opd := w.extractLsb' 8 8
  opc == 1 || ((opc == 2 || opc == 3 || opc == 4) && opd == 0)

/-- The bring-up order of R234: a host program issues CONSTRUCT before any other command. -/
def Program.wf : List Instr → Bool
  | [] => true
  | .construct _ :: _ => true
  | .update :: _ => false
  | .lastT :: _ => false
  | .lastH :: _ => false

end Sys2Proof
end

