-- ==== Sys2Proof/Decode.lean ====
section
/-! DEFINITION. The CMD16 decoder and encoder (30_encoding.md R70-R75), and the pseudo-instruction
READ_ALL (R84). -/

namespace Sys2Proof

/-- `OPC`, bits 7:0 of a command word (R70). -/
def opcodeField (w : Word16) : Byte := w.extractLsb' 0 8

/-- `OPD`, bits 15:8 of a command word (R70). -/
def operandField (w : Word16) : Byte := w.extractLsb' 8 8

/-- The decoder of R74, total on every 16-bit word. -/
def decode (w : Word16) : Decoded :=
  let opc := opcodeField w
  let opd := operandField w
  if opc = 0x01#8 then .command (.construct opd)
  else if opc = 0x02#8 ∧ opd = 0x00#8 then .command .update
  else if opc = 0x03#8 ∧ opd = 0x00#8 then .command .lastT
  else if opc = 0x04#8 ∧ opd = 0x00#8 then .command .lastH
  else .illegal w

/-- A command word from its two fields (R70): `OPD` in bits 15:8, `OPC` in bits 7:0. -/
def commandWord (opd opc : Byte) : Word16 := opd ++ opc

/-- `OPC` of each command (R71). -/
def opcodeOf : Instr → Byte
  | .construct _ => 0x01#8
  | .update => 0x02#8
  | .lastT => 0x03#8
  | .lastH => 0x04#8

/-- `OPD` of each command: the pin of CONSTRUCT, 0 for every other opcode (R70, R72). -/
def operandOf : Instr → Byte
  | .construct pin => pin
  | .update => 0x00#8
  | .lastT => 0x00#8
  | .lastH => 0x00#8

/-- The word of a command (R70, R71). -/
def encode (i : Instr) : Word16 := commandWord (operandOf i) (opcodeOf i)

/-- The pseudo-instruction READ_ALL (R84). -/
def readAll : List Instr := [.update, .lastH, .lastT]

/-- The words of a host program, one a command, in order (R70, R82). -/
def encodeProgram (is : List Instr) : List Word16 := is.map encode

/-- The 16-bit word whose low `nbits` bits are those of `w`, the rest 0. Log entry 16. -/
def tableWord (nbits w : Nat) : Word16 := BitVec.ofNat 16 (w % 2 ^ nbits)

/-- The command this decoder reads from a word numbered as spec/opcode_table.json numbers it: a
command is always exactly one 16-bit word (R70). -/
def decodeTableWord (nbits w : Nat) : Option Instr :=
  match decode (tableWord nbits w) with
  | .command i => some i
  | .illegal _ => none

end Sys2Proof
end

