-- ==== Sys2Proof/Machine/State.lean ====
section
/-! DEFINITION. The state of the core (10_state.md), the model's own fields beside it, the reasons
a step can stop, and the state at power-on. -/

namespace Sys2Proof.Machine

/-- The sequencer's program points (10_state.md R34). -/
inductive Phase where
  | idle
  | uIdleWait
  | uWakeMode
  | uWakeDrive
  | uWakeHold
  | uRelMode
  | uRelSettle
  | uAckLow
  | uAckHigh
  | bLow
  | bHigh
  | bMeasure
  | uCommit
  deriving DecidableEq, Repr

/-- A capability call as EVENTS records it (00_scope.md R12, 10_state.md R40). -/
inductive Event where
  | evRead (l : Level)
  | evMode (m : Mode)
  | evWrite (l : Level)
  | evDelay (us : Nat)
  deriving DecidableEq, Repr

/-- A call of the injected capability set, with the arguments it is made with (00_scope.md R12,
60_exceptions.md R213): `read`, `setMode` and `write` name a pin, the delay does not. -/
inductive Call where
  | read (pin : Byte) (l : Level)
  | setMode (pin : Byte) (m : Mode)
  | write (pin : Byte) (l : Level)
  | delayMicroseconds (us : Nat)
  deriving DecidableEq, Repr

/-- The labels of ABORT (60_exceptions.md R201). A failure in a bit phase records
`(BYTE_IDX, BIT_IDX)` (10_state.md R37). `noAbort` is the spec's `NONE`. -/
inductive Abort where
  | noAbort
  | idleTimeout
  | ackLowTimeout
  | ackHighTimeout
  | bitLowTimeout (byteIdx : Fin 5) (bitIdx : Fin 8)
  | bitHighTimeout (byteIdx : Fin 5) (bitIdx : Fin 8)
  | bitTooLong (byteIdx : Fin 5) (bitIdx : Fin 8)
  | checksumMismatch
  deriving DecidableEq, Repr

/-- The two accessors, as `UninitCacheRead` names them (60_exceptions.md R202). -/
inductive Accessor where
  | lastT
  | lastH
  deriving DecidableEq, Repr

/-- The model faults of 60_exceptions.md R202, each with its info. -/
inductive ModelFault where
  | illegalCommand (w : Word16)
  | noHandle (w : Word16)
  | overlap (w : Word16)
  | uninitCacheRead (which : Accessor)
  deriving DecidableEq, Repr

/-- The response of a command (30_encoding.md R76). -/
inductive Response where
  | completion
  | updateResult (b : Bool)
  | word (v : Word16)
  deriving DecidableEq, Repr

/-- What the host does next. DESIGN CHOICE, log entry 6, safe: the host is outside the core (10_state.md
R41), so its commands are held as data the step reads. -/
inductive HostMove where
  /-- The discipline of R108: present `w` once no command is in flight. -/
  | issue (w : Word16)
  /-- A host that may break R108: present `w` after `delay` further steps, in flight or not. -/
  | present (delay : Nat) (w : Word16)
  deriving DecidableEq, Repr

/-- The state. The first block is the spec's (10_state.md); an `Option` there is the spec's own "no
value" (R43, R44, R188, R232; log entry 1). The second block is the model's. -/
structure State where
  /-- `HANDLE_EXISTS` (R21). -/
  handleExists : Bool
  /-- `PIN` (R22). -/
  pin : Option Byte
  /-- `DIR` (R24). -/
  dir : Option Mode
  /-- `OUT_LEVEL` (R25). -/
  outLevel : Option Level
  /-- `CACHE_T` (R26). -/
  cacheT : Option Word16
  /-- `CACHE_H` (R27). -/
  cacheH : Option Word16
  /-- `CACHE_WRITTEN` (R28). -/
  cacheWritten : Bool
  /-- `FRAME[0..4]` (R29). -/
  frame : Vector (Option Byte) 5
  /-- `ACC` (R30). -/
  acc : Option Byte
  /-- `BYTE_IDX`, in 0..4 (R31). -/
  byteIdx : Option (Fin 5)
  /-- `BIT_IDX`, in 0..7 (R31). -/
  bitIdx : Option (Fin 8)
  /-- `C`, the sampler's poll counter (R32). -/
  c : Option Nat
  /-- `D`, the HIGH-duration counter (R33). -/
  d : Option Nat
  /-- `PHASE` (R34). -/
  phase : Phase
  /-- `RESULT` (R36). -/
  result : Option Bool
  /-- `ABORT` (R37). -/
  abort : Option Abort
  /-- `FAULT`, a set, listed without repeats (R38; log entry 10). -/
  fault : List ModelFault
  /-- `EVENTS`, in issue order (R40). -/
  events : List Event
  /-- The configuration (00_scope.md R6, 10_state.md R23; log entry 4). No step writes it. -/
  params : Parameters
  /-- The levels the line environment answers next (00_scope.md R12; log entry 3). -/
  line : List Level
  /-- How many `LineRead`s have been made: the index of the next free draw (log entry 3). -/
  draws : Nat
  /-- What the host does next (log entry 6). -/
  host : List HostMove
  /-- The responses delivered, oldest first (30_encoding.md R76, 70_reset_and_hazards.md R242). -/
  responses : List Response
  /-- The core is between the two calls of a poll that went on: the read is made and counted, the tick's
  `Delay` is the next step (00_scope.md R14; log entry 7). A point inside PHASE, and the model's own. -/
  tickDue : Bool
  /-- The calls made of the capability set, oldest first, each with its pin argument (10_state.md R22,
  60_exceptions.md R213; log entry 20). EVENTS is the same history without the pin (R40). -/
  calls : List Call
  deriving DecidableEq, Repr

/-- The one way the machine stops for good. -/
inductive Fault where
  /-- FAULT is non-empty: "the core takes no step and accepts no command" (10_state.md R38,
  60_exceptions.md R203). Raised by the step and by every meaning. Safe: the spec gives no run past
  this point. -/
  | quiescent
  deriving DecidableEq, Repr

/-- What the model gives no meaning. -/
inductive Refusal where
  /-- An instruction without a meaning yet, by mnemonic. No arm uses it now. Safe. -/
  | notModelled (mnemonic : String)
  /-- The configuration has `TIMEOUT < 10`: "refused: the model gives it no meaning" (00_scope.md R7,
  60_exceptions.md R202). Raised by the step and by every meaning. Safe. -/
  | timeoutBelowTen
  /-- A host of several handles binds a line that another handle holds: "A host that does this has no move
  in the model" (60_exceptions.md R214, 93_implementation_defined.md item 15). Raised by stepInstance
  only. Safe: the model stops. -/
  | sharedLine
  deriving DecidableEq, Repr

/-- What a step answers. -/
abbrev Outcome := Host.Outcome State Fault Refusal

/-- `FRAME` with no byte received (R43). -/
abbrev emptyFrame : Vector (Option Byte) 5 := Vector.replicate 5 none

/-- The power-on state (10_state.md R43, 70_reset_and_hazards.md R230, R232). -/
def State.reset : State where
  handleExists := false
  pin := none
  dir := none
  outLevel := none
  cacheT := none
  cacheH := none
  cacheWritten := false
  frame := emptyFrame
  acc := none
  byteIdx := none
  bitIdx := none
  c := none
  d := none
  phase := .idle
  result := none
  abort := none
  fault := []
  events := []
  params := Config.parameters
  line := []
  draws := 0
  host := []
  responses := []
  tickDue := false
  calls := []

end Sys2Proof.Machine
end

