-- ==== Sys2Proof/Machine/Operands.lean ====
section
/-! DEFINITION. Bit-field, byte-order and sign helpers, and the numeric codes of the enumerations:
every form in which the spec assembles or reads a value. -/

namespace Sys2Proof.Machine

/-- `hi ++ lo = (hi << 8) | lo` (00_scope.md R9, 20_memory.md R52): the first byte received is the
most significant. -/
def concat16 (hi lo : Byte) : Word16 := (hi.setWidth 16 <<< 8) ||| lo.setWidth 16

/-- `v[n] <- b` on a byte: bit `n` becomes `b`, the others stay (43_bit_decoder.md R163). -/
def setBit (v : Byte) (n : Nat) (b : Bool) : Byte :=
  if b then v ||| (1#8 <<< n) else v &&& ~~~(1#8 <<< n)

/-- The position at which the bit received at index `i` lands (43_bit_decoder.md R163). -/
def bitPosition (i : Fin 8) : Nat := 7 - i.val

/-- `neg16(x) = (65536 - x) mod 65536` (00_scope.md R9). -/
def neg16 (x : Word16) : Word16 := BitVec.ofNat 16 ((65536 - x.toNat) % 65536)

/-- `as_int16(v)`: the two's-complement reading the host gives a 16-bit response (R9, R76). -/
def asInt16 (v : Word16) : Int := v.toInt

/-- `LOW` = 0, `HIGH` = 1 (00_scope.md R10). -/
def levelCode : Level → Nat
  | .low => 0
  | .high => 1

/-- `IN` = 0, `OUT` = 1 (00_scope.md R10). -/
def modeCode : Mode → Nat
  | .input => 0
  | .output => 1

/-- The bits a response carries: none for completion, one for UPDATE (1 = true, 0 = false), sixteen
for an accessor (30_encoding.md R76). -/
def responseBits : Response → List Bool
  | .completion => []
  | .updateResult b => [b]
  | .word v => (List.range 16).map v.getLsbD

end Sys2Proof.Machine
end

