-- ==== Sys2Proof/Machine/Flags.lean ====
section
/-! DEFINITION. The pure computations that decide a bit, a flag or a result: the pulse-width
discriminator, the checksum validator, the sign corrector, and the codes of the failure labels. -/

namespace Sys2Proof.Machine

/-- `classify(d)`: the bit is 1 when the HIGH count exceeds the threshold (43_bit_decoder.md R162). -/
def classify (d : Nat) : Bool := decide (d > bitThreshold)

/-- The mod-256 sum of the four data bytes (44_frame_decoder.md R185). -/
def checksum (b0 b1 b2 b3 : Byte) : Byte :=
  BitVec.ofNat 8 ((b0.toNat + b1.toNat + b2.toNat + b3.toNat) % 256)

/-- `ChecksumOK()`: the sum equals the received checksum byte (44_frame_decoder.md R185). -/
def checksumOK (b0 b1 b2 b3 b4 : Byte) : Bool := checksum b0 b1 b2 b3 == b4

/-- `SignCorrect(r)`: sign-magnitude to two's complement (44_frame_decoder.md R184). -/
def signCorrect (r : Word16) : Word16 :=
  if r.getLsbD 15 then neg16 ((r.extractLsb' 0 15).setWidth 16) else r

/-- The codes of ABORT (60_exceptions.md R201). -/
def abortCode : Abort → Nat
  | .noAbort => 0
  | .idleTimeout => 1
  | .ackLowTimeout => 2
  | .ackHighTimeout => 3
  | .bitLowTimeout _ _ => 4
  | .bitHighTimeout _ _ => 5
  | .bitTooLong _ _ => 6
  | .checksumMismatch => 7

/-- The codes of the model faults (60_exceptions.md R202). -/
def modelFaultCode : ModelFault → Nat
  | .illegalCommand _ => 1
  | .noHandle _ => 2
  | .overlap _ => 3
  | .uninitCacheRead _ => 4

end Sys2Proof.Machine
end

