-- ==== Sys2Proof/Machine/Ops.lean ====
section
/-! DEFINITION. The operations every rule is written with: reading an element, the four capability
primitives (00_scope.md R12), `fail` and `raise` (R13), responses, and the checks of dispatch
(40_host_operations.md R100). -/

namespace Sys2Proof.Machine

/-! ### Reading an element

An element that holds no value reads as a free value. R232 makes such a read impossible by
construction, so no run makes one (log entry 2). -/

/-- What reading an element that holds no value gives in this state. -/
def State.freeNat (s : State) : Nat := Config.noValue s.draws

/-- `C` (R32). -/
def State.readC (s : State) : Nat := s.c.getD s.freeNat

/-- `D` (R33). -/
def State.readD (s : State) : Nat := s.d.getD s.freeNat

/-- `ACC` (R30). -/
def State.readAcc (s : State) : Byte := s.acc.getD (BitVec.ofNat 8 s.freeNat)

/-- `BYTE_IDX` (R31). -/
def State.readByteIdx (s : State) : Fin 5 := s.byteIdx.getD (Fin.ofNat 5 s.freeNat)

/-- `BIT_IDX` (R31). -/
def State.readBitIdx (s : State) : Fin 8 := s.bitIdx.getD (Fin.ofNat 8 s.freeNat)

/-- `FRAME[k]` (R29). -/
def State.readFrame (s : State) (k : Fin 5) : Byte := s.frame[k].getD (BitVec.ofNat 8 s.freeNat)

/-- `CACHE_T` (R26). -/
def State.readCacheT (s : State) : Word16 := s.cacheT.getD (BitVec.ofNat 16 s.freeNat)

/-- `CACHE_H` (R27). -/
def State.readCacheH (s : State) : Word16 := s.cacheH.getD (BitVec.ofNat 16 s.freeNat)

/-- `BUSY` is `PHASE != IDLE` (R39). -/
def State.busy (s : State) : Bool := decide (s.phase ≠ .idle)

/-- `PIN` (R22), the pin argument of every capability call. -/
def State.readPin (s : State) : Byte := s.pin.getD Config.noPin

/-! ### Capability primitives (R12) -/

/-- The call of the capability set that an event records, made on `pin` (R12, R213). -/
def Event.callAt (pin : Byte) : Event → Call
  | .evRead l => .read pin l
  | .evMode m => .setMode pin m
  | .evWrite l => .write pin l
  | .evDelay us => .delayMicroseconds us

/-- Make one capability call on PIN (R22) and append its event to EVENTS (R40). -/
def State.record (e : Event) (s : State) : State :=
  { s with events := s.events ++ [e], calls := s.calls ++ [e.callAt s.readPin] }

/-- The level the environment answers to the next `LineRead`, `read(PIN)`: the next of the listed levels,
and the free draw of this pin once there is none (R12, R57; log entry 3). -/
def State.nextLevel (s : State) : Level := s.line.headD (Config.lineDraw s.readPin s.draws)

/-- The state after a `LineRead`, `read(PIN)`: the answer is used up and `EvRead` recorded. It changes
nothing else of the core (R57). -/
def State.afterRead (s : State) : State :=
  State.record (.evRead s.nextLevel) { s with line := s.line.tail, draws := s.draws + 1 }

/-- `SetMode(m)`: `setMode(PIN, m)`. -/
def State.setMode (m : Mode) (s : State) : State := State.record (.evMode m) { s with dir := some m }

/-- `LineWrite(l)`: `write(PIN, l)`. -/
def State.lineWrite (l : Level) (s : State) : State := State.record (.evWrite l) { s with outLevel := some l }

/-- `Delay(us)`: an event, and no change of the core (R12, R212). -/
def State.delay (us : Nat) (s : State) : State := s.record (.evDelay us)

/-! ### A poll that goes on

R140 and R160 follow such a poll with a delay of one tick. A step makes at most one capability call
(00_scope.md R14, D1), so the delay is the step after the read (log entry 7). -/

/-- `WaitForPin`'s mismatching read: it counts, and its tick is due (42_sampler.md R140). -/
def State.countPoll (s : State) : State := { s.afterRead with c := some (s.readC + 1), tickDue := true }

/-- `MeasureHigh`'s HIGH read: it counts, and its tick is due (43_bit_decoder.md R160). -/
def State.countHigh (s : State) : State := { s.afterRead with d := some (s.readD + 1), tickDue := true }

/-- The `Delay` of the tick that is due. -/
def State.tick (us : Nat) (s : State) : State := { s.delay us with tickDue := false }

/-! ### Sequencer moves -/

/-- `PHASE <- p` (R11). -/
def State.goto (p : Phase) (s : State) : State := { s with phase := p }

/-- Entering a sampler phase sets `C <- 0` (10_state.md R35, 42_sampler.md R144). -/
def State.enterSampler (p : Phase) (s : State) : State := { s with phase := p, c := some 0 }

/-- Entering `B_MEASURE` sets `D <- 0` (10_state.md R35, 43_bit_decoder.md R160). -/
def State.enterMeasure (s : State) : State := { s with phase := .bMeasure, d := some 0 }

/-- The transient elements hold no value outside an UPDATE (44_frame_decoder.md R188). -/
def State.clearTransient (s : State) : State :=
  { s with frame := emptyFrame, acc := none, byteIdx := none, bitIdx := none, c := none, d := none }

/-- Deliver a response to the host (30_encoding.md R76; log entry 11). -/
def State.respond (r : Response) (s : State) : State := { s with responses := s.responses ++ [r] }

/-- The end of every UPDATE: `RESULT <- r`, back to `IDLE`, respond `r` (40_host_operations.md R104),
with the transient elements left without value (R188). -/
def State.finish (r : Bool) (s : State) : State :=
  State.respond (.updateResult r) { s.clearTransient with result := some r, phase := .idle }

/-- `fail(reason)`: the one failure channel of an UPDATE (00_scope.md R13, 60_exceptions.md R205). The
core saves no state, changes no mode and goes to no vector. -/
def State.fail (reason : Abort) (s : State) : State := State.finish false { s with abort := some reason }

/-- `raise F(info)`: add to FAULT and write nothing else (00_scope.md R13, 60_exceptions.md R203). There
is no return from it: a raised fault is never cleared (R206). -/
def State.raise (f : ModelFault) (s : State) : State :=
  { s with fault := if f ∈ s.fault then s.fault else s.fault ++ [f] }

/-! ### Checks -/

/-- `k` in a state in which the core may take a step: its configuration has a meaning (R7) and FAULT
is empty (R38, R100). -/
def whenRunning (s : State) (k : Outcome) : Outcome :=
  if s.params.wf = false then .refused .timeoutBelowTen
  else if s.fault.isEmpty = false then .fault .quiescent
  else k

/-- The checks of R100 that come before decoding, for the word `w`: FAULT, then Overlap (R101). -/
def whenFree (w : Word16) (s : State) (k : Outcome) : Outcome :=
  whenRunning s (if s.busy then .next (s.raise (.overlap w)) else k)

/-- The check of R100 and R102 for every command but CONSTRUCT. -/
def withHandle (w : Word16) (s : State) (k : Outcome) : Outcome :=
  if s.handleExists then k else .next (s.raise (.noHandle w))

end Sys2Proof.Machine
end

