-- ==== Sys2Proof/Machine/HostOps.lean ====
section
/-! DEFINITION. The meanings of the four host commands (40_host_operations.md R103-R107), each with the
dispatch checks of R100 that hold for it. -/

namespace Sys2Proof.Machine

/-- CONSTRUCT (R103): bind to the line named by `pin` and reset the handle. Everything R44 lists as
without value afterwards holds none (log entry 12). -/
def State.construct (pin : Byte) (s : State) : State :=
  State.respond .completion
    { (State.setMode .input { s with handleExists := true, pin := some pin }).clearTransient with
      cacheWritten := false
      cacheT := none
      cacheH := none
      result := none
      abort := none
      outLevel := none
      phase := .idle }

/-- CONSTRUCT pin (R103). It never raises `NoHandle`. -/
def execConstruct (pin : Byte) (s : State) : Outcome :=
  whenFree (encode (.construct pin)) s (.next (s.construct pin))

/-- UPDATE accepted (R104, first row of R35): `ABORT <- NONE`, then the sequencer starts at
`U_IDLE_WAIT` with `C = 0`. -/
def State.acceptUpdate (s : State) : State :=
  State.enterSampler .uIdleWait { s with abort := some .noAbort }

/-- UPDATE (R104). Its remaining effect is made by the rows of R35, one a step of the machine (log
entries 7, 8 and 9), and ends with the response. -/
def execUpdate (s : State) : Outcome :=
  whenFree (encode .update) s (withHandle (encode .update) s (.next s.acceptUpdate))

/-- An accessor (R105, R106): `UninitCacheRead` before any commit (R107), else the cached word and no
change of the core. -/
def readCache (which : Accessor) (v : Word16) (s : State) : Outcome :=
  if s.cacheWritten then .next (s.respond (.word v)) else .next (s.raise (.uninitCacheRead which))

/-- LAST_T (R105). -/
def execLastT (s : State) : Outcome :=
  whenFree (encode .lastT) s (withHandle (encode .lastT) s (readCache .lastT s.readCacheT s))

/-- LAST_H (R106). -/
def execLastH (s : State) : Outcome :=
  whenFree (encode .lastH) s (withHandle (encode .lastH) s (readCache .lastH s.readCacheH s))

end Sys2Proof.Machine
end

