-- ==== Sys2Proof/Machine/Dispatch.lean ====
section
/-! DEFINITION. One arm per host command. -/

namespace Sys2Proof.Machine

def exec (i : Instr) (s : State) : Host.Outcome State Fault Refusal :=
  match i with
  | .construct pin => Sys2Proof.Machine.execConstruct pin s
  | .update => Sys2Proof.Machine.execUpdate s
  | .lastT => Sys2Proof.Machine.execLastT s
  | .lastH => Sys2Proof.Machine.execLastH s

end Sys2Proof.Machine
end

