-- ==== Sys2Proof/Machine/Sampler.lean ====
section
/-! DEFINITION. The bit-timing sampler `WaitForPin` (42_sampler.md R140) as the three rows that the
step table gives each sampler phase (10_state.md R35), one capability call a step. -/

namespace Sys2Proof.Machine

/-- One step of a sampler phase with the target level `target`. A tick that is due is delayed first.
Else, below the ceiling, it makes one `LineRead`: a match takes the phase's success exit, and a mismatch
counts. At the ceiling it makes no call and fails (R142, R143; log entries 7 and 17). -/
def samplerStep (target : Level) (reason : Abort) (onMatch : State → State) (s : State) : State :=
  if s.tickDue then s.tick s.params.samplerTickUs
  else if s.readC < s.params.timeout then
    if s.nextLevel = target then onMatch s.afterRead else s.countPoll
  else s.fail reason

end Sys2Proof.Machine
end

