-- ==== Sys2Proof/Machine/BitDecoder.lean ====
section
/-! DEFINITION. The pulse-width discriminator and byte reader (43_bit_decoder.md R160-R166), one
definition per program point (10_state.md R35). -/

namespace Sys2Proof.Machine

/-- `WaitForPin(LOW)` of the current bit (R164). -/
def stepBitLow (s : State) : State :=
  samplerStep .low (.bitLowTimeout s.readByteIdx s.readBitIdx) (State.enterSampler .bHigh) s

/-- `WaitForPin(HIGH)` of the current bit (R164). -/
def stepBitHigh (s : State) : State :=
  samplerStep .high (.bitHighTimeout s.readByteIdx s.readBitIdx) State.enterMeasure s

/-- `ACC[7 - BIT_IDX] <- classify(D)` (R162, R163): the accumulator with the measured bit placed. -/
def State.placedAcc (s : State) : Byte := setBit s.readAcc (bitPosition s.readBitIdx) (classify s.readD)

/-- A bit that is not its byte's last: place it and wait for the next (10_state.md R35). -/
def State.nextBit (s : State) : State :=
  State.enterSampler .bLow
    { s with acc := some s.placedAcc, bitIdx := some (s.readBitIdx + 1) }

/-- The last bit of a byte that is not the frame's last: store the byte and start the next one
(10_state.md R35, 44_frame_decoder.md R180). -/
def State.nextByte (s : State) : State :=
  State.enterSampler .bLow
    { s with
      frame := s.frame.set s.readByteIdx (some s.placedAcc)
      byteIdx := some (s.readByteIdx + 1)
      bitIdx := some 0
      acc := some 0 }

/-- The last bit of the frame: store the checksum byte and go to the commit (10_state.md R35). The last
`readByte` is over, so ACC holds no value any more (R30). -/
def State.lastByte (s : State) : State :=
  State.goto .uCommit { s with acc := none, frame := s.frame.set 4 (some s.placedAcc) }

/-- What the LOW read that ends a measurement leads to. -/
def State.bitDone (s : State) : State :=
  if s.readBitIdx < 7 then s.nextBit
  else if s.readByteIdx < 4 then s.nextByte
  else s.lastByte

/-- One step of `MeasureHigh()` (R160). A tick that is due is delayed first. Else, below the fine
ceiling, it makes one `LineRead`: HIGH counts, LOW ends the bit. At the ceiling it makes no call and
fails (R161; log entries 7 and 17). -/
def stepMeasure (s : State) : State :=
  if s.tickDue then s.tick s.params.durationTickUs
  else if s.readD < fineTimeout s.params then
    match s.nextLevel with
    | .high => s.countHigh
    | .low => s.afterRead.bitDone
  else s.fail (.bitTooLong s.readByteIdx s.readBitIdx)

end Sys2Proof.Machine
end

