-- ==== Sys2Proof/Machine/FrameDecoder.lean ====
section
/-! DEFINITION. The commit step (44_frame_decoder.md R182-R187). -/

namespace Sys2Proof.Machine

/-- The humidity field, `FRAME[0] ++ FRAME[1]` (R182). -/
def State.humidityField (s : State) : Word16 := concat16 (s.readFrame 0) (s.readFrame 1)

/-- The raw temperature field, `FRAME[2] ++ FRAME[3]` (R183). -/
def State.temperatureField (s : State) : Word16 := concat16 (s.readFrame 2) (s.readFrame 3)

/-- `ChecksumOK()` over FRAME (R185). -/
def State.frameOK (s : State) : Bool :=
  checksumOK (s.readFrame 0) (s.readFrame 1) (s.readFrame 2) (s.readFrame 3) (s.readFrame 4)

/-- `Commit()`, first part (R186): the cache is written whatever the checksum. -/
def State.writeCache (s : State) : State :=
  { s with
    cacheH := some s.humidityField
    cacheT := some (signCorrect s.temperatureField)
    cacheWritten := true }

/-- `Result()` (R187): true with `ABORT <- NONE`, or `fail(CHECKSUM_MISMATCH)`. -/
def State.deliverResult (s : State) : State :=
  if s.frameOK then State.finish true { s with abort := some .noAbort } else s.fail .checksumMismatch

/-- The step at `U_COMMIT` (10_state.md R35). -/
def stepCommit (s : State) : State := s.writeCache.deliverResult

end Sys2Proof.Machine
end

