-- ==== Sys2Proof/Machine/LineController.lean ====
section
/-! DEFINITION. The line controller's steps of UPDATE (41_line_controller.md R121-R124), one
definition per program point (10_state.md R35). -/

namespace Sys2Proof.Machine

/-- `IdleCheck()` (R121): wait for HIGH, then go to the wake pulse. -/
def stepIdleWait (s : State) : State :=
  samplerStep .high .idleTimeout (State.goto .uWakeMode) s

/-- `WakePulse()` (R122), mode first. -/
def stepWakeMode (s : State) : State := (s.setMode .output).goto .uWakeDrive

/-- `WakePulse()` (R122), then the level: the only `LineWrite` of the core. -/
def stepWakeDrive (s : State) : State := (s.lineWrite .low).goto .uWakeHold

/-- `WakePulse()` (R122), then the hold of `WAKE_US`. -/
def stepWakeHold (s : State) : State := (s.delay wakeUs).goto .uRelMode

/-- `Release()` (R123): back to input. -/
def stepRelMode (s : State) : State := (s.setMode .input).goto .uRelSettle

/-- `Release()` (R123): settle before sampling, then `Ack()`. -/
def stepRelSettle (s : State) : State := (s.delay settleUs).enterSampler .uAckLow

/-- `Ack()` (R124), the LOW wait. -/
def stepAckLow (s : State) : State :=
  samplerStep .low .ackLowTimeout (State.enterSampler .uAckHigh) s

/-- The first bit of the first byte: `BYTE_IDX`, `BIT_IDX` and `ACC` start at 0 (10_state.md R35). -/
def State.startFrame (s : State) : State :=
  State.enterSampler .bLow { s with byteIdx := some 0, bitIdx := some 0, acc := some 0 }

/-- `Ack()` (R124), the HIGH wait, then the frame. -/
def stepAckHigh (s : State) : State :=
  samplerStep .high .ackHighTimeout State.startFrame s

end Sys2Proof.Machine
end

