-- ==== Sys2Proof/Machine/Sequencer.lean ====
section
/-! DEFINITION. One step of the core sequencer: the row of the step table at the current program
point (10_state.md R35), or the call of it that is still due (R14; log entry 7). -/

namespace Sys2Proof.Machine

/-- The step table of R35. At `IDLE` nothing is in flight and the core holds its state
(60_exceptions.md R216; log entry 13). -/
def sequencerStep (s : State) : State :=
  match s.phase with
  | .idle => s
  | .uIdleWait => stepIdleWait s
  | .uWakeMode => stepWakeMode s
  | .uWakeDrive => stepWakeDrive s
  | .uWakeHold => stepWakeHold s
  | .uRelMode => stepRelMode s
  | .uRelSettle => stepRelSettle s
  | .uAckLow => stepAckLow s
  | .uAckHigh => stepAckHigh s
  | .bLow => stepBitLow s
  | .bHigh => stepBitHigh s
  | .bMeasure => stepMeasure s
  | .uCommit => stepCommit s

end Sys2Proof.Machine
end

