-- ==== Sys2Proof/Machine/HostPort.lean ====
section
/-! DEFINITION. The host's side of a step: which command word it presents now, and what the core
does with a presented word (40_host_operations.md R100, R108). -/

namespace Sys2Proof.Machine

/-- The word the host presents at this step, if any, with the host's remaining moves. A disciplined
host (R108) presents its next word only while no command is in flight; the other kind of move
presents its word when its delay is over, whatever the phase (log entry 6). -/
def hostMove (s : State) : Option Word16 × List HostMove :=
  match s.host with
  | [] => (none, [])
  | .issue w :: rest => if s.busy then (none, .issue w :: rest) else (some w, rest)
  | .present 0 w :: rest => (some w, rest)
  | .present (n + 1) w :: rest => (none, .present n w :: rest)

/-- `accept(w)` (R100): the checks come in the order Overlap, IllegalCommand, NoHandle (R204). The
meanings make the checks of R100 themselves, so the first and the third of them stand in `exec`. -/
def accept (w : Word16) (s : State) : Outcome :=
  match decode w with
  | .command i => exec i s
  | .illegal _ => whenFree w s (.next (s.raise (.illegalCommand w)))

/-- One step of the machine in a state in which the core may step: a presented word is accepted or
turned away, and otherwise the sequencer takes its row. -/
def advance (s : State) : Outcome :=
  match hostMove s with
  | (some w, rest) => accept w { s with host := rest }
  | (none, rest) => .next (sequencerStep { s with host := rest })

/-- A host that issues the words of a program one after another, each after the response to the one
before it (R82, R108). -/
def State.withProgram (ws : List Word16) (s : State) : State := { s with host := ws.map .issue }

end Sys2Proof.Machine
end

