-- ==== Sys2Proof/Machine/Step.lean ====
section
/-! DEFINITION. One step of the machine. -/

namespace Sys2Proof.Machine

/-- One step: none with a configuration R7 refuses, none while FAULT is non-empty (R38). -/
def step (s : State) : Host.Outcome State Fault Refusal := whenRunning s (advance s)

/-- The host presents the word at once, so that the next step accepts it (log entries 6 and 16). -/
def State.withFetchWord (s : State) (nbits w : Nat) : State :=
  { s with host := .present 0 (tableWord nbits w) :: s.host }

end Sys2Proof.Machine
end

