-- ==== Sys2Proof/Machine/Assembler.lean ====
section
/-! DEFINITION. The host program syntax (30_encoding.md R82), its aliases (R83) and its one
pseudo-instruction (R84), over lists of characters. What R82 leaves to the reader, such as which
characters separate words, is log entry 19. -/

namespace Sys2Proof.Machine

/-- Space, tab and carriage return separate the words of a line. -/
def isBlank (ch : Char) : Bool := ch == ' ' || ch == '\t' || ch == '\r'

/-- The words of a line before its comment. -/
def lineWords : List Char → List (List Char)
  | [] => []
  | ch :: rest =>
    if ch == ';' then []
    else if isBlank ch then [] :: lineWords rest
    else
      match lineWords rest with
      | [] => [[ch]]
      | w :: ws => (ch :: w) :: ws

/-- The non-empty words of a line before its comment. -/
def tokens (line : List Char) : List (List Char) := (lineWords line).filter (fun w => !w.isEmpty)

/-- A decimal digit's value. -/
def decimalDigit (ch : Char) : Option Nat :=
  if '0' ≤ ch ∧ ch ≤ '9' then some (ch.toNat - '0'.toNat) else none

/-- A hexadecimal digit's value, in either case. -/
def hexDigit (ch : Char) : Option Nat :=
  if '0' ≤ ch ∧ ch ≤ '9' then some (ch.toNat - '0'.toNat)
  else if 'A' ≤ ch ∧ ch ≤ 'F' then some (ch.toNat - 'A'.toNat + 10)
  else if 'a' ≤ ch ∧ ch ≤ 'f' then some (ch.toNat - 'a'.toNat + 10)
  else none

/-- The value of a decimal numeral, `v` being the value of the digits before. -/
def decimalValue (v : Nat) : List Char → Option Nat
  | [] => some v
  | ch :: rest =>
    match decimalDigit ch with
    | some n => decimalValue (10 * v + n) rest
    | none => none

/-- `pin := decimal 0..255 | "0x" hex 00..FF` (R82). -/
def parsePin : List Char → Option Byte
  | [] => none
  | ['0', 'x', hi, lo] =>
    match hexDigit hi, hexDigit lo with
    | some h, some l => some (BitVec.ofNat 8 (16 * h + l))
    | _, _ => none
  | ch :: rest =>
    match decimalValue 0 (ch :: rest) with
    | some v => if v ≤ 255 then some (BitVec.ofNat 8 v) else none
    | none => none

/-- The commands without an operand: the mnemonics of R82 and R84, in any case, and the aliases of
R83, as written there. -/
def parsePlain (word : List Char) : Option (List Instr) :=
  let m := word.map Char.toUpper
  if m = ['U', 'P', 'D', 'A', 'T', 'E'] ∨ word = ['u', 'p', 'd', 'a', 't', 'e', '(', ')'] then
    some [.update]
  else if m = ['L', 'A', 'S', 'T', '_', 'T'] ∨ word = ['l', 'a', 's', 't', 'T', '(', ')'] ∨
      word = ['l', 'a', 's', 't', 'T', 'e', 'm', 'p', 'e', 'r', 'a', 't', 'u', 'r', 'e', '(', ')'] then
    some [.lastT]
  else if m = ['L', 'A', 'S', 'T', '_', 'H'] ∨ word = ['l', 'a', 's', 't', 'H', '(', ')'] ∨
      word = ['l', 'a', 's', 't', 'H', 'u', 'm', 'i', 'd', 'i', 't', 'y', '(', ')'] then
    some [.lastH]
  else if m = ['R', 'E', 'A', 'D', '_', 'A', 'L', 'L'] then some readAll
  else none

/-- `construct(pin)`, the alias of `CONSTRUCT pin` (R83). -/
def parseConstructCall (word : List Char) : Option (List Instr) :=
  if word.take 10 = ['c', 'o', 'n', 's', 't', 'r', 'u', 'c', 't', '('] ∧ word.getLast? = some ')' then
    match parsePin ((word.drop 10).dropLast) with
    | some pin => some [.construct pin]
    | none => none
  else none

/-- `line := [command] [";" comment]` (R82): the commands of one line, none for a line that holds no
command, and no answer for a line that the syntax does not have. -/
def parseLine (line : List Char) : Option (List Instr) :=
  match tokens line with
  | [] => some []
  | [word] =>
    match parsePlain word with
    | some is => some is
    | none => parseConstructCall word
  | [word, pin] =>
    if word.map Char.toUpper = ['C', 'O', 'N', 'S', 'T', 'R', 'U', 'C', 'T'] then
      match parsePin pin with
      | some p => some [.construct p]
      | none => none
    else none
  | _ => none

/-- The command words of a host program given line by line (R82, R84). -/
def assemble : List (List Char) → Option (List Word16)
  | [] => some []
  | line :: rest =>
    match parseLine line, assemble rest with
    | some is, some ws => some (encodeProgram is ++ ws)
    | _, _ => none

end Sys2Proof.Machine
end

