-- ==== Sys2Proof/Machine/Instances.lean ====
section
/-! DEFINITION. Several handles (60_exceptions.md R214): independent instances of the core, which share
no state, each bound to a line of its own. Log entry 18. -/

namespace Sys2Proof.Machine

/-- No two handles are bound to one line (R214, 20_memory.md R66, 70_reset_and_hazards.md R234). -/
def exclusiveLines (cores : List State) : Bool :=
  decide ((cores.filterMap State.pin).Nodup)

/-- `k` for a list of handles that keeps every line to one handle. Two handles on one line are "outside
the model" (R214), so such a list is refused. -/
def onExclusiveLines (cores : List State) (k : Host.Outcome (List State) Fault Refusal) :
    Host.Outcome (List State) Fault Refusal :=
  if exclusiveLines cores then k else .refused .sharedLine

/-- One step of instance `k`, the others as they are. Instance `k` stops as its own step stops. A step
that binds a line another handle holds is no move of the host and is refused (R214, R234, 93 item 15). -/
def stepInstance (k : Nat) (cores : List State) : Host.Outcome (List State) Fault Refusal :=
  onExclusiveLines cores <|
    match cores[k]? with
    | none => .next cores
    | some s =>
      match step s with
      | .next s' => onExclusiveLines (cores.set k s') (.next (cores.set k s'))
      | .fault r => .fault r
      | .refused r => .refused r

end Sys2Proof.Machine
end

