-- ==== Sys2Proof/Machine/Procedures.lean ====
section
/-! DEFINITION. The internal operations of UPDATE as the rules' own pseudocode gives them. The step
table of 10_state.md R35 only summarises these rules, and "if it ever disagrees with them, they
govern": statements say that the machine's steps agree with them. A Bool beside a state is the
operation's return value. -/

namespace Sys2Proof.Machine

/-- The loop of `WaitForPin` (42_sampler.md R140), `n` polls before the ceiling. -/
def waitLoop (target : Level) : Nat → State → Bool × State
  | 0, s => (false, s)
  | n + 1, s =>
    if s.nextLevel = target then (true, s.afterRead)
    else waitLoop target n (State.delay s.params.samplerTickUs { s.afterRead with c := some (s.readC + 1) })

/-- `WaitForPin(target)` (R140). -/
def waitForPin (target : Level) (s : State) : Bool × State :=
  waitLoop target s.params.timeout { s with c := some 0 }

/-- The loop of `MeasureHigh` (43_bit_decoder.md R160), `n` polls before the fine ceiling. -/
def measureLoop : Nat → State → Option Nat × State
  | 0, s => (none, s)
  | n + 1, s =>
    match s.nextLevel with
    | .low => (some s.readD, s.afterRead)
    | .high => measureLoop n (State.delay s.params.durationTickUs { s.afterRead with d := some (s.readD + 1) })

/-- `MeasureHigh()` (R160). -/
def measureHigh (s : State) : Option Nat × State :=
  measureLoop (fineTimeout s.params) { s with d := some 0 }

/-- What a failing sub-step writes before it returns `false`; UPDATE itself writes the rest of
`fail` (00_scope.md R13, 40_host_operations.md R104). -/
def failing (reason : Abort) (s : State) : Bool × State := (false, { s with abort := some reason })

/-- One bit of `ReadByte()` (43_bit_decoder.md R164), at index `i`. -/
def readBit (i : Fin 8) (s : State) : Bool × State :=
  match waitForPin .low ({ s with bitIdx := some i }.goto .bLow) with
  | (false, s1) => failing (.bitLowTimeout s1.readByteIdx i) s1
  | (true, s1) =>
    match waitForPin .high (s1.goto .bHigh) with
    | (false, s2) => failing (.bitHighTimeout s2.readByteIdx i) s2
    | (true, s2) =>
      match measureHigh (s2.goto .bMeasure) with
      | (none, s3) => failing (.bitTooLong s3.readByteIdx i) s3
      | (some n, s3) => (true, { s3 with acc := some (setBit s3.readAcc (bitPosition i) (classify n)) })

/-- The bits of `ReadByte()` at the given indices, in order, up to the first failure (R165). -/
def readBits : List (Fin 8) → State → Bool × State
  | [], s => (true, s)
  | i :: is, s =>
    match readBit i s with
    | (false, s1) => (false, s1)
    | (true, s1) => readBits is s1

/-- `ReadByte()` (R164): the byte read is in ACC. -/
def readByte (s : State) : Bool × State := readBits [0, 1, 2, 3, 4, 5, 6, 7] { s with acc := some 0 }

/-- The bytes of `FrameDecode()` at the given indices, in order, up to the first failure
(44_frame_decoder.md R180, R181). ACC holds no value once its byte is stored (10_state.md R30). -/
def readBytes : List (Fin 5) → State → Bool × State
  | [], s => (true, s)
  | k :: ks, s =>
    match readByte { s with byteIdx := some k } with
    | (false, s1) => (false, s1)
    | (true, s1) => readBytes ks { s1 with frame := s1.frame.set k (some s1.readAcc), acc := none }

/-- `Result()` (R187), after the cache is written. -/
def commitResult (s : State) : Bool × State :=
  if s.frameOK then (true, { s with abort := some .noAbort }) else failing .checksumMismatch s

/-- `Commit()` (R186). -/
def commit (s : State) : Bool × State := commitResult s.writeCache

/-- `FrameDecode()` (R125, R180). -/
def frameDecode (s : State) : Bool × State :=
  match readBytes [0, 1, 2, 3, 4] s with
  | (false, s1) => (false, s1)
  | (true, s1) => commit (s1.goto .uCommit)

/-- `IdleCheck()` (41_line_controller.md R121). -/
def idleCheck (s : State) : Bool × State :=
  match waitForPin .high (s.goto .uIdleWait) with
  | (false, s1) => failing .idleTimeout s1
  | (true, s1) => (true, s1)

/-- `WakePulse()` (R122). -/
def wakePulse (s : State) : State :=
  State.delay wakeUs <| State.goto .uWakeHold <|
    State.lineWrite .low <| State.goto .uWakeDrive <|
      State.setMode .output <| State.goto .uWakeMode s

/-- `Release()` (R123). -/
def release (s : State) : State :=
  State.delay settleUs <| State.goto .uRelSettle <| State.setMode .input <| State.goto .uRelMode s

/-- `Ack()` (R124). -/
def ack (s : State) : Bool × State :=
  match waitForPin .low (s.goto .uAckLow) with
  | (false, s1) => failing .ackLowTimeout s1
  | (true, s1) =>
    match waitForPin .high (s1.goto .uAckHigh) with
    | (false, s2) => failing .ackHighTimeout s2
    | (true, s2) => (true, s2)

/-- `Update()` (R120): the first failing sub-step ends it (R126). -/
def updateSequence (s : State) : Bool × State :=
  match idleCheck s with
  | (false, s1) => (false, s1)
  | (true, s1) =>
    match ack (release (wakePulse s1)) with
    | (false, s2) => (false, s2)
    | (true, s2) => frameDecode s2

/-- `UPDATE()` (40_host_operations.md R104), as the one blocking call the host sees (R108). -/
def updateCall (s : State) : State :=
  let r := updateSequence { s with abort := some .noAbort }
  r.2.finish r.1

end Sys2Proof.Machine
end

