-- ==== Sys2Proof/Machine/WireFrame.lean ====
section
/-! DEFINITION. The wire frame as the sensor sends it (30_encoding.md R77-R81): what the line answers
to the core's reads when a frame is on it. The sensor is no part of the core; statements use these
waveforms as the environment's answers. -/

namespace Sys2Proof.Machine

/-- The polls one bit takes beyond its three ending reads (43_bit_decoder.md R166): `a` HIGH reads
before its LOW, `b` further LOW reads before its HIGH, and `d` counted HIGH reads. -/
structure BitTiming where
  a : Nat
  b : Nat
  d : Nat
  deriving DecidableEq, Repr

/-- The reads of one bit (R78, R166). -/
def bitLevels (t : BitTiming) : List Level :=
  List.replicate t.a .high ++ [.low] ++ List.replicate t.b .low ++ [.high] ++
    List.replicate t.d .high ++ [.low]

/-- The bit with timing `t` is received within the ceilings (R166). -/
def BitTiming.within (p : Parameters) (t : BitTiming) : Bool :=
  decide (t.a < p.timeout) && decide (t.b < p.timeout) && decide (t.d < fineTimeout p)

/-- The reads of the handshake (41_line_controller.md R127): `i` LOW reads before the idle HIGH, `l`
HIGH reads before the acknowledgment LOW, `h` further LOW reads before the acknowledgment HIGH. -/
def handshakeLevels (i l h : Nat) : List Level :=
  List.replicate i .low ++ [.high] ++ List.replicate l .high ++ [.low] ++
    List.replicate h .low ++ [.high]

/-- The indices of a frame's bits in the order received (20_memory.md R53, 30_encoding.md R77). -/
def bitOrder : List (Fin 5 × Fin 8) :=
  (List.finRange 5).flatMap fun k => (List.finRange 8).map fun i => (k, i)

/-- The reads of the 40 bits, with the timing of each. -/
def frameLevels (timing : Fin 5 → Fin 8 → BitTiming) : List Level :=
  bitOrder.flatMap fun ki => bitLevels (timing ki.1 ki.2)

/-- The timings send the bytes `f`: the bit at index `i` of byte `k` is bit `7 - i` of it, and its
HIGH count says its value (R78, R163). -/
def sends (timing : Fin 5 → Fin 8 → BitTiming) (f : Fin 5 → Byte) : Prop :=
  ∀ k i, classify (timing k i).d = (f k).getLsbD (bitPosition i)

/-- The value a raw temperature field stands for: sign and 15-bit magnitude (R79). -/
def temperatureValue (r : Word16) : Int :=
  if r.getLsbD 15 then -((r.toNat % 32768 : Nat) : Int) else ((r.toNat % 32768 : Nat) : Int)

end Sys2Proof.Machine
end

