-- ==== Sys2Proof/Safety.lean ====
section
/-! DEFINITION. The terms claims are stated in: when a run has ended well, what is counted, what
a state must look like at each program point, and what the core never reads. -/

namespace Sys2Proof.Machine

/-- The core may take a step: its configuration has a meaning (00_scope.md R7) and FAULT is empty
(10_state.md R38). -/
def State.runnable (s : State) : Bool := s.params.wf && s.fault.isEmpty

/-- The core accepts a command (40_host_operations.md R100): it may step and none is in flight. -/
def State.ready (s : State) : Bool := s.runnable && !s.busy

/-- The answer the environment gives to the `n`-th `LineRead` from here on, the first being number 0
(00_scope.md R12). -/
def State.answer (s : State) (n : Nat) : Level := s.line.getD n (Config.lineDraw s.readPin (s.draws + n))

/-- The state after the capability calls that `es` records, in order, each made on PIN (10_state.md R22, R40;
00_scope.md R12). -/
def State.performed (es : List Event) (s : State) : State :=
  { s with events := s.events ++ es, calls := s.calls ++ es.map (Event.callAt s.readPin) }

/-- What EVENTS records of a call (10_state.md R40). -/
def Call.event : Call → Event
  | .read _ l => .evRead l
  | .setMode _ m => .evMode m
  | .write _ l => .evWrite l
  | .delayMicroseconds us => .evDelay us

/-- The end of a run (70_reset_and_hazards.md R242): no command left, the last response delivered,
IDLE, no fault. A command is answered exactly when the core is IDLE again. R242 speaks of the last command
and is silent on a host that issues none; that such a run counts as ended successfully is the model's
choice. DESIGN CHOICE, log entry 24, unsafe for a claim that a successful end means a response. -/
def State.endedSuccessfully (s : State) : Bool :=
  s.host.isEmpty && !s.busy && s.fault.isEmpty

/-- The host keeps the discipline of 40_host_operations.md R108. -/
def State.disciplined (s : State) : Bool :=
  s.host.all fun m => match m with
    | .issue _ => true
    | .present _ _ => false

/-- How many line reads an event list records. -/
def readCount (es : List Event) : Nat :=
  es.countP fun e => match e with
    | .evRead _ => true
    | .evMode _ => false
    | .evWrite _ => false
    | .evDelay _ => false

/-- How many delays an event list records. -/
def delayCount (es : List Event) : Nat :=
  es.countP fun e => match e with
    | .evRead _ => false
    | .evMode _ => false
    | .evWrite _ => false
    | .evDelay _ => true

/-- Commands executed one after another, each on the state the one before it left. -/
def execAll : List Instr → State → Outcome
  | [], s => .next s
  | i :: is, s =>
    match exec i s with
    | .next s' => execAll is s'
    | .fault r => .fault r
    | .refused r => .refused r

/-- The most line reads one UPDATE makes (70_reset_and_hazards.md R241). -/
def updateReadBound (p : Parameters) : Nat :=
  3 * p.timeout + 40 * (2 * p.timeout + fineTimeout p)

/-- The program points that poll the line through the sampler (R34, R35). -/
def Phase.samples : Phase → Bool
  | .uIdleWait | .uAckLow | .uAckHigh | .bLow | .bHigh => true
  | .idle | .uWakeMode | .uWakeDrive | .uWakeHold | .uRelMode | .uRelSettle | .bMeasure | .uCommit => false

/-- The program points of a bit (R34). -/
def Phase.inBit : Phase → Bool
  | .bLow | .bHigh | .bMeasure => true
  | .idle | .uIdleWait | .uWakeMode | .uWakeDrive | .uWakeHold | .uRelMode | .uRelSettle | .uAckLow
  | .uAckHigh | .uCommit => false

/-- The program points that belong to the frame: its bits and its commit (R34, R31; log entry 23). -/
def Phase.inFrame (p : Phase) : Bool := p.inBit || p == .uCommit

/-- The program points at which the wake pulse drives the line (41_line_controller.md R122). -/
def Phase.drives : Phase → Bool
  | .uWakeDrive | .uWakeHold | .uRelMode => true
  | .idle | .uIdleWait | .uWakeMode | .uRelSettle | .uAckLow | .uAckHigh | .bLow | .bHigh | .bMeasure
  | .uCommit => false

/-- A command in flight belongs to a handle that is bound (R21, R22, R34). -/
def State.handleInv (s : State) : Prop :=
  (s.phase ≠ .idle → s.handleExists = true) ∧ (s.handleExists = true → s.pin.isSome = true)

/-- The line direction at each program point (10_state.md R24, 42_sampler.md R149): OUT while the wake
pulse drives, IN at every other point of a bound handle. -/
def State.dirInv (s : State) : Prop :=
  s.handleExists = true → s.dir = some (if s.phase.drives then .output else .input)

/-- The core never drives HIGH (10_state.md R25, 41_line_controller.md R122). -/
def State.latchInv (s : State) : Prop := s.outLevel ≠ some .high

/-- The cache holds values exactly when a commit has written it (R26-R28), and the temperature is
never 0x8000 (40_host_operations.md R105, 44_frame_decoder.md R184). -/
def State.cacheInv (s : State) : Prop :=
  s.cacheT.isSome = s.cacheWritten ∧ s.cacheH.isSome = s.cacheWritten ∧ s.cacheT ≠ some 0x8000#16

/-- The counters stay within their ceilings (R32, R33, 60_exceptions.md R211), and hold a value at the
points that read them. -/
def State.counterInv (s : State) : Prop :=
  (∀ n, s.c = some n → n ≤ s.params.timeout) ∧ (∀ n, s.d = some n → n ≤ fineTimeout s.params) ∧
    (s.phase.samples = true → s.c.isSome = true) ∧ (s.phase = .bMeasure → s.d.isSome = true)

/-- FRAME, ACC and the indices hold a value at the points that read them (R29-R31): inside a bit the
bytes before the current one are received, at the commit all are. -/
def State.frameInv (s : State) : Prop :=
  (s.phase.inBit = true →
    s.acc.isSome = true ∧ s.bitIdx.isSome = true ∧
      ∃ k, s.byteIdx = some k ∧ ∀ j : Fin 5, j < k → (s.frame[j]).isSome = true) ∧
    (s.phase = .uCommit → ∀ j : Fin 5, (s.frame[j]).isSome = true)

/-- The transient elements hold no value outside an UPDATE (44_frame_decoder.md R188). -/
def State.transientInv (s : State) : Prop :=
  s.phase = .idle → s.frame = emptyFrame ∧ s.acc = none ∧ s.byteIdx = none ∧ s.bitIdx = none ∧
    s.c = none ∧ s.d = none

/-- ACC holds no value outside a `readByte` (R30), and the indices none outside the frame phases (R31). -/
def State.scopeInv (s : State) : Prop :=
  (s.phase.inBit = false → s.acc = none) ∧
    (s.phase.inFrame = false → s.byteIdx = none ∧ s.bitIdx = none)

/-- A tick is due only at a polling point, after a poll that counted (42_sampler.md R140,
43_bit_decoder.md R160; log entry 7). -/
def State.tickInv (s : State) : Prop :=
  s.tickDue = true →
    (s.phase.samples = true ∧ ∃ n, s.c = some (n + 1)) ∨ (s.phase = .bMeasure ∧ ∃ n, s.d = some (n + 1))

/-- EVENTS records exactly the capability calls made, in order (10_state.md R40, 20_memory.md R59). -/
def State.callsInv (s : State) : Prop := s.events = s.calls.map Call.event

/-- FAULT is a set, and a fault is raised only into an empty one (R38, 60_exceptions.md R203). -/
def State.faultInv (s : State) : Prop := s.fault.length ≤ 1

/-- The invariant of the machine. -/
structure State.Inv (s : State) : Prop where
  handle : s.handleInv
  dir : s.dirInv
  latch : s.latchInv
  cache : s.cacheInv
  counters : s.counterInv
  frame : s.frameInv
  transient : s.transientInv
  scope : s.scopeInv
  tick : s.tickInv
  calls : s.callsInv
  faults : s.faultInv

/-- The state with the elements the core writes and never reads blotted out: DIR, OUT_LEVEL, RESULT, ABORT
and EVENTS are read by no rule (10_state.md R25, R36, R37, R40; 41_line_controller.md R128), and the model's
record of the calls is not either. -/
def State.unread (s : State) : State :=
  { s with dir := none, outLevel := none, result := none, abort := none, events := [], calls := [] }

/-- The same with PIN blotted out too, which a step reads only as the argument of its capability calls
(10_state.md R22). -/
def State.unreadPin (s : State) : State := { s.unread with pin := none }

/-- An outcome with its state mapped. -/
def mapOutcome (f : State → State) : Outcome → Outcome
  | .next s => .next (f s)
  | .fault r => .fault r
  | .refused r => .refused r

/-- `n` steps of the machine. -/
def run (n : Nat) (s : State) : Outcome :=
  match n with
  | 0 => .next s
  | k + 1 =>
    match step s with
    | .next s' => run k s'
    | .fault r => .fault r
    | .refused r => .refused r

end Sys2Proof.Machine
end

