-- ==== Sys2Proof/Certificates/Slice0/Obligations.lean ====
section
/-! DEFINITION. The statements for the provers. Each docstring says which rule it formalises. A clause
about `host`, `responses`, `line`, `draws`, `params` or `tickDue` is about the model's own fields (log
entries 3, 4, 6, 7 and 11), which no rule names as state. `State.performed es` is the state after the
capability calls that `es` records: EVENTS has `es` appended (R40), and the model's list `calls` has each call
with PIN as its argument (R12, R22; log entry 20). A statement about a row or a run starts where
no tick is due, as every row does; StepKeepsTheInvariant says that none is due at IDLE. -/

open Sys2Proof Sys2Proof.Machine

/-! ### Encoding -/

/-- R70-R72, R74: decoding an encoded command gives it back, and a word that decodes to a command is
that command's word, so no bit of either is dropped. -/
def Obligations.DecodeAndEncodeAgree : Prop :=
  ∀ (w : Word16) (i : Instr), decode w = .command i ↔ encode i = w

/-- R73: exactly these words are illegal, and each is refused as itself. -/
def Obligations.IllegalWordsAreTheOnesNamed : Prop :=
  ∀ w : Word16,
    (decode w = .illegal w ↔
      opcodeField w ∉ [0x01#8, 0x02#8, 0x03#8, 0x04#8] ∨
        (opcodeField w ∈ [0x02#8, 0x03#8, 0x04#8] ∧ operandField w ≠ 0#8)) ∧
    ∀ v, decode w = .illegal v → v = w

/-- R75: the examples of the encoding, written out bit by bit. -/
def Obligations.ExampleWordsDecode : Prop :=
  decode 0b0000011100000001#16 = .command (.construct 7#8) ∧
  decode 0b0000000000000001#16 = .command (.construct 0#8) ∧
  decode 0b1111111100000001#16 = .command (.construct 255#8) ∧
  decode 0b0000000000000010#16 = .command .update ∧
  decode 0b0000000000000011#16 = .command .lastT ∧
  decode 0b0000000000000100#16 = .command .lastH ∧
  decode 0b0000000000000000#16 = .illegal 0x0000#16 ∧
  decode 0b0000000100000010#16 = .illegal 0x0102#16

/-- R84: READ_ALL is UPDATE, LAST_H, LAST_T, in that order. -/
def Obligations.ReadAllExpandsToThreeWords : Prop :=
  readAll = [.update, .lastH, .lastT] ∧
    encodeProgram readAll = [0x0002#16, 0x0004#16, 0x0003#16]

/-- R83, R84: every alias means the command it names, for every pin, and READ_ALL its three. What a pin
numeral denotes is PinNumeralsDenoteTheirValue. -/
def Obligations.AliasesMeanTheirCommands : Prop :=
  (∀ (numeral : List Char) (pin : Byte), parsePin numeral = some pin →
    parseLine ("construct(".toList ++ numeral ++ ")".toList) = some [.construct pin] ∧
    parseLine ("CONSTRUCT ".toList ++ numeral) = some [.construct pin]) ∧
  parseLine "update()".toList = some [.update] ∧ parseLine "UPDATE".toList = some [.update] ∧
  parseLine "lastTemperature()".toList = some [.lastT] ∧ parseLine "lastT()".toList = some [.lastT] ∧
  parseLine "LAST_T".toList = some [.lastT] ∧
  parseLine "lastHumidity()".toList = some [.lastH] ∧ parseLine "lastH()".toList = some [.lastH] ∧
  parseLine "LAST_H".toList = some [.lastH] ∧ parseLine "READ_ALL".toList = some readAll

/-- R82: a decimal numeral denotes its value, up to 255 and no further, and "0x" with two hexadecimal
digits the value of those. That leading zeros and both cases of a hexadecimal digit are read is the
model's choice (log entry 19). -/
def Obligations.PinNumeralsDenoteTheirValue : Prop :=
  (∀ ds : List Nat, ds ≠ [] → (∀ n ∈ ds, n < 10) →
    parsePin (ds.map Nat.digitChar) =
      if ds.foldl (fun v n => 10 * v + n) 0 ≤ 255 then
        some (BitVec.ofNat 8 (ds.foldl (fun v n => 10 * v + n) 0))
      else none) ∧
  (∀ h l : Nat, h < 16 → l < 16 →
    ∀ hi ∈ [Nat.digitChar h, (Nat.digitChar h).toUpper],
      ∀ lo ∈ [Nat.digitChar l, (Nat.digitChar l).toUpper],
        parsePin ['0', 'x', hi, lo] = some (BitVec.ofNat 8 (16 * h + l))) ∧
  parsePin [] = none

/-- R82, R84: a mnemonic is read in any case, CONSTRUCT with the pin its numeral denotes and READ_ALL as
its three commands; a comment changes nothing, and a line may hold no command. -/
def Obligations.HostProgramLinesAreRead : Prop :=
  (∀ word : List Char,
    (word.map Char.toUpper = "UPDATE".toList → parseLine word = some [.update]) ∧
    (word.map Char.toUpper = "LAST_T".toList → parseLine word = some [.lastT]) ∧
    (word.map Char.toUpper = "LAST_H".toList → parseLine word = some [.lastH]) ∧
    (word.map Char.toUpper = "READ_ALL".toList → parseLine word = some readAll) ∧
    ∀ (numeral : List Char) (pin : Byte), word.map Char.toUpper = "CONSTRUCT".toList →
      parsePin numeral = some pin → parseLine (word ++ ' ' :: numeral) = some [.construct pin]) ∧
  (∀ line comment : List Char, parseLine (line ++ ';' :: comment) = parseLine line) ∧
  parseLine [] = some []

/-- R76: the bits of a response: none for completion, one for UPDATE with 1 for true, and the sixteen of
the word for an accessor. -/
def Obligations.ResponsesCarryTheirBits : Prop :=
  responseBits .completion = [] ∧ responseBits (.updateResult true) = [true] ∧
  responseBits (.updateResult false) = [false] ∧
  ∀ v : Word16, (responseBits (.word v)).length = 16 ∧
    ∀ i, i < 16 → (responseBits (.word v))[i]? = some (v.getLsbD i)

/-! ### Reset -/

/-- R43: the power-on state. -/
def Obligations.ResetIsThePowerOnState : Prop :=
  State.reset.handleExists = false ∧ State.reset.phase = .idle ∧ State.reset.fault = [] ∧
  State.reset.events = [] ∧ State.reset.cacheWritten = false ∧
  State.reset.pin = none ∧ State.reset.dir = none ∧ State.reset.outLevel = none ∧
  State.reset.cacheT = none ∧ State.reset.cacheH = none ∧
  (∀ k : Fin 5, State.reset.frame[k] = none) ∧ State.reset.acc = none ∧
  State.reset.byteIdx = none ∧ State.reset.bitIdx = none ∧ State.reset.c = none ∧
  State.reset.d = none ∧ State.reset.result = none ∧ State.reset.abort = none

/-- R230: at power-on CONSTRUCT succeeds and every other command raises NoHandle. -/
def Obligations.PowerOnAcceptsOnlyConstruct : Prop :=
  (∀ pin, ∃ t, step (State.reset.withFetchWord 16 (encode (.construct pin)).toNat) = .next t ∧
    t.fault = [] ∧ t.handleExists = true ∧ t.pin = some pin) ∧
  (∀ i, (∀ pin, i ≠ .construct pin) →
    ∃ t, step (State.reset.withFetchWord 16 (encode i).toNat) = .next t ∧
      t.fault = [.noHandle (encode i)] ∧ t.handleExists = false)

/-! ### Steps and dispatch -/

/-- R100: when the host presents a word that decodes to a command, the step is that command's meaning
on the state with the word taken from the host (the model's own field, log entry 6). The same holds
for a word placed where the step fetches next. -/
def Obligations.StepRunsThePresentedCommand : Prop :=
  (∀ (s : State) (w : Word16) (i : Instr) (rest : List HostMove),
    (s.host = .present 0 w :: rest ∨ (s.host = .issue w :: rest ∧ s.phase = .idle)) →
    decode w = .command i → step s = exec i { s with host := rest }) ∧
  (∀ (s : State) (nbits w : Nat) (i : Instr), decodeTableWord nbits w = some i →
    step (s.withFetchWord nbits w) = exec i s)

/-- R35, R108: when the host presents no word, the step is the sequencer's row. A host that waits for
its response is left waiting; a delayed word comes one step nearer (log entry 6). R216: at IDLE with no
word presented the core holds all its state; that such a step is taken at all is the model's choice
(log entry 13). -/
def Obligations.StepTakesTheSequencerRow : Prop :=
  ∀ s : State, s.runnable = true →
    (s.host = [] → step s = .next (sequencerStep s)) ∧
    (∀ w rest, s.host = .issue w :: rest → s.phase ≠ .idle → step s = .next (sequencerStep s)) ∧
    (∀ n w rest, s.host = .present (n + 1) w :: rest →
      step s = .next (sequencerStep { s with host := .present n w :: rest })) ∧
    (s.phase = .idle → s.host = [] → step s = .next s) ∧
    (s.phase = .idle → ∀ n w rest, s.host = .present (n + 1) w :: rest →
      step s = .next { s with host := .present n w :: rest })

/-- R100: the order of the checks for a presented word. The first answer is that of R7, for a
configuration that never reaches the running core. -/
def Obligations.AcceptanceChecksInOrder : Prop :=
  ∀ (s : State) (w : Word16) (rest : List HostMove), hostMove s = (some w, rest) →
    step s =
      (if s.params.timeout < 10 then .refused .timeoutBelowTen
       else if s.fault ≠ [] then .fault .quiescent
       else if s.phase ≠ .idle then .next { s with host := rest, fault := [.overlap w] }
       else match decode w with
        | .illegal _ => .next { s with host := rest, fault := [.illegalCommand w] }
        | .command (.construct pin) => exec (.construct pin) { s with host := rest }
        | .command i =>
          if s.handleExists = false then .next { s with host := rest, fault := [.noHandle w] }
          else exec i { s with host := rest })

/-- R101: a word presented while a command is in flight raises Overlap and changes nothing else, and
the command in flight never responds, since no step follows. -/
def Obligations.OverlapStopsTheCommandInFlight : Prop :=
  ∀ s : State, s.runnable = true → s.phase ≠ .idle →
    (∀ w rest, hostMove s = (some w, rest) →
      step s = .next { s with host := rest, fault := [.overlap w] } ∧
      step { s with host := rest, fault := [.overlap w] } = .fault .quiescent) ∧
    ∀ i, exec i s = .next { s with fault := [.overlap (encode i)] }

/-- R102: without a handle, UPDATE, LAST_T and LAST_H raise NoHandle and change nothing else. -/
def Obligations.NoHandleIsRaised : Prop :=
  ∀ s : State, s.ready = true → s.handleExists = false →
    exec .update s = .next { s with fault := [.noHandle 0x0002#16] } ∧
    exec .lastT s = .next { s with fault := [.noHandle 0x0003#16] } ∧
    exec .lastH s = .next { s with fault := [.noHandle 0x0004#16] }

/-- R107: an accessor raises UninitCacheRead until a commit has written the cache, whatever the cache
elements hold. -/
def Obligations.UnwrittenCacheReadIsRaised : Prop :=
  ∀ s : State, s.ready = true → s.handleExists = true → s.cacheWritten = false →
    exec .lastT s = .next { s with fault := [.uninitCacheRead .lastT] } ∧
    exec .lastH s = .next { s with fault := [.uninitCacheRead .lastH] }

/-- R38: FAULT is empty at power-on; while it is non-empty no step is taken and no command accepted,
so it is never cleared; and a faulted state is no successful end. -/
def Obligations.FaultedCoreIsQuiescent : Prop :=
  State.reset.fault = [] ∧
  (∀ s : State, s.fault ≠ [] →
    (∀ t, step s ≠ .next t) ∧ (∀ i t, exec i s ≠ .next t) ∧
    (s.params.wf = true → step s = .fault .quiescent ∧ ∀ i, exec i s = .fault .quiescent) ∧
    s.endedSuccessfully = false)

/-- R7: a configuration with TIMEOUT below 10, for which FINE_TIMEOUT is 0, is refused. -/
def Obligations.ShortTimeoutIsRefused : Prop :=
  ∀ s : State, s.params.timeout < 10 →
    fineTimeout s.params = 0 ∧ step s = .refused .timeoutBelowTen ∧
    ∀ i, exec i s = .refused .timeoutBelowTen

/-- R23: no operation writes the configuration, and FINE_TIMEOUT is derived from TIMEOUT. -/
def Obligations.NothingWritesTheConfiguration : Prop :=
  ∀ s t : State, step s = .next t →
    t.params = s.params ∧ fineTimeout t.params = s.params.timeout / 10

/-! ### The host commands -/

/-- R44: the state right after CONSTRUCT, for every pin and every handle before it. The completion
response is the model's own field (log entry 11). -/
def Obligations.ConstructResetsTheHandle : Prop :=
  ∀ (pin : Byte) (s : State), s.ready = true →
    exec (.construct pin) s = .next (State.performed [.evMode .input]
      { s with
        handleExists := true
        pin := some pin
        dir := some .input
        phase := .idle
        cacheWritten := false
        outLevel := none
        cacheT := none
        cacheH := none
        result := none
        abort := none
        frame := Vector.replicate 5 none
        acc := none
        byteIdx := none
        bitIdx := none
        c := none
        d := none
        responses := s.responses ++ [.completion] })

/-- R104 and the first row of R35: UPDATE is accepted, with ABORT at NONE, and starts at U_IDLE_WAIT
with C at 0; everything else is unchanged. -/
def Obligations.UpdateIsAccepted : Prop :=
  ∀ s : State, s.ready = true → s.handleExists = true →
    exec .update s = .next { s with abort := some .noAbort, phase := .uIdleWait, c := some 0 }

/-- R105: LAST_T responds CACHE_T and changes no element of the core. -/
def Obligations.LastTRespondsTheCachedTemperature : Prop :=
  ∀ (s : State) (v : Word16), s.ready = true → s.handleExists = true → s.cacheWritten = true →
    s.cacheT = some v →
    exec .lastT s = .next { s with responses := s.responses ++ [.word v] }

/-- R106: LAST_H responds CACHE_H and changes no element of the core. -/
def Obligations.LastHRespondsTheCachedHumidity : Prop :=
  ∀ (s : State) (v : Word16), s.ready = true → s.handleExists = true → s.cacheWritten = true →
    s.cacheH = some v →
    exec .lastH s = .next { s with responses := s.responses ++ [.word v] }

/-- R58: the accessors have no side effect. Any number of accessor calls, in any order, respond the cached
fields verbatim, so two calls of one accessor respond the same value, and nothing but the responses is
delivered (the model's own field, log entry 11). -/
def Obligations.AccessorsHaveNoSideEffects : Prop :=
  ∀ (s : State) (vT vH : Word16) (calls : List Instr),
    s.ready = true → s.handleExists = true → s.cacheWritten = true →
    s.cacheT = some vT → s.cacheH = some vH → (∀ i ∈ calls, i = .lastT ∨ i = .lastH) →
    execAll calls s = .next
      { s with responses := s.responses ++ calls.map fun i => .word (if i = .lastT then vT else vH) }

/-! ### The rows of the step table -/

/-- R35, R140: a matching poll below the ceiling takes the success exit of its phase. -/
def Obligations.SamplerMatchTakesTheSuccessExit : Prop :=
  ∀ (s : State) (n : Nat), s.tickDue = false → s.c = some n → n < s.params.timeout →
    (s.phase = .uIdleWait → s.nextLevel = .high → sequencerStep s =
      State.performed [.evRead .high]
        { s with line := s.line.tail, draws := s.draws + 1, phase := .uWakeMode }) ∧
    (s.phase = .uAckLow → s.nextLevel = .low → sequencerStep s =
      State.performed [.evRead .low]
        { s with line := s.line.tail, draws := s.draws + 1, phase := .uAckHigh, c := some 0 }) ∧
    (s.phase = .uAckHigh → s.nextLevel = .high → sequencerStep s =
      State.performed [.evRead .high]
        { s with line := s.line.tail, draws := s.draws + 1, phase := .bLow, c := some 0,
                 byteIdx := some 0, bitIdx := some 0, acc := some 0#8 }) ∧
    (s.phase = .bLow → s.nextLevel = .low → sequencerStep s =
      State.performed [.evRead .low]
        { s with line := s.line.tail, draws := s.draws + 1, phase := .bHigh, c := some 0 }) ∧
    (s.phase = .bHigh → s.nextLevel = .high → sequencerStep s =
      State.performed [.evRead .high]
        { s with line := s.line.tail, draws := s.draws + 1, phase := .bMeasure, d := some 0 })

/-- R35, R140, R145: a mismatching poll below the ceiling counts, delays one tick and stays in its phase.
R14 allows one capability call a step, so the read and the delay are two steps (log entry 7); together they
make exactly the row. -/
def Obligations.SamplerMismatchCountsAndDelays : Prop :=
  ∀ (s : State) (target : Level),
    (s.phase, target) ∈ [(Phase.uIdleWait, Level.high), (Phase.uAckLow, Level.low),
      (Phase.uAckHigh, Level.high), (Phase.bLow, Level.low), (Phase.bHigh, Level.high)] →
    (s.tickDue = true → sequencerStep s =
      State.performed [.evDelay s.params.samplerTickUs] { s with tickDue := false }) ∧
    ∀ n : Nat, s.tickDue = false → s.c = some n → n < s.params.timeout → s.nextLevel ≠ target →
      sequencerStep s =
        State.performed [.evRead s.nextLevel]
          { s with line := s.line.tail, draws := s.draws + 1, c := some (n + 1), tickDue := true } ∧
      sequencerStep (sequencerStep s) =
        State.performed [.evRead s.nextLevel, .evDelay s.params.samplerTickUs]
          { s with line := s.line.tail, draws := s.draws + 1, c := some (n + 1) }

/-- R35, R201: at the ceiling a sampler phase makes no call and fails with its reason, a bit phase with
the current indices. -/
def Obligations.SamplerTimeoutFailsWithItsReason : Prop :=
  ∀ s : State, s.tickDue = false → s.c = some s.params.timeout →
    (s.phase = .uIdleWait → sequencerStep s = s.fail .idleTimeout) ∧
    (s.phase = .uAckLow → sequencerStep s = s.fail .ackLowTimeout) ∧
    (s.phase = .uAckHigh → sequencerStep s = s.fail .ackHighTimeout) ∧
    ∀ k i, s.byteIdx = some k → s.bitIdx = some i →
      (s.phase = .bLow → sequencerStep s = s.fail (.bitLowTimeout k i)) ∧
      (s.phase = .bHigh → sequencerStep s = s.fail (.bitHighTimeout k i))

/-- R143: a timeout is declared at the ceiling and never at an earlier check; in particular the poll
made with C one below it may still match, and a tick still due is delayed first (log entry 7). -/
def Obligations.TimeoutIsDeclaredOnlyAtTheCeiling : Prop :=
  ∀ (s : State) (n : Nat), s.phase.samples = true → s.c = some n → n ≤ s.params.timeout →
    ((sequencerStep s).responses = s.responses ++ [.updateResult false] ↔
      n = s.params.timeout ∧ s.tickDue = false) ∧
    (n < s.params.timeout ∨ s.tickDue = true → (sequencerStep s).responses = s.responses)

/-- R205: what `fail` writes, and that it writes nothing else: the result, the label, IDLE, the
response, and the transient elements of R188. -/
def Obligations.FailEndsTheUpdate : Prop :=
  ∀ (s : State) (reason : Abort), s.fail reason =
    { s with
      abort := some reason
      result := some false
      phase := .idle
      responses := s.responses ++ [.updateResult false]
      frame := Vector.replicate 5 none
      acc := none
      byteIdx := none
      bitIdx := none
      c := none
      d := none }

/-- R206: a failure is not fatal: after it the core accepts the next UPDATE. -/
def Obligations.FailureLeavesTheCoreReady : Prop :=
  ∀ (s : State) (reason : Abort), s.runnable = true → s.handleExists = true →
    (s.fail reason).ready = true ∧ ∃ t, exec .update (s.fail reason) = .next t ∧ t.phase = .uIdleWait ∧
      t.fault = []

/-- R122, R123 and their rows of R35: the wake pulse and the release. -/
def Obligations.WakePulseAndReleaseRows : Prop :=
  ∀ s : State,
    (s.phase = .uWakeMode → sequencerStep s =
      State.performed [.evMode .output] { s with dir := some .output, phase := .uWakeDrive }) ∧
    (s.phase = .uWakeDrive → sequencerStep s =
      State.performed [.evWrite .low] { s with outLevel := some .low, phase := .uWakeHold }) ∧
    (s.phase = .uWakeHold → sequencerStep s =
      State.performed [.evDelay 1000] { s with phase := .uRelMode }) ∧
    (s.phase = .uRelMode → sequencerStep s =
      State.performed [.evMode .input] { s with dir := some .input, phase := .uRelSettle }) ∧
    (s.phase = .uRelSettle → sequencerStep s =
      State.performed [.evDelay 10] { s with phase := .uAckLow, c := some 0 })

/-- R160, R161: below the fine ceiling a HIGH poll counts and delays one tick, as two steps that together
make the row of R35 (log entry 7); at the ceiling the bit fails. -/
def Obligations.MeasureCountsHighPolls : Prop :=
  ∀ s : State, s.phase = .bMeasure →
    (s.tickDue = true → sequencerStep s =
      State.performed [.evDelay s.params.durationTickUs] { s with tickDue := false }) ∧
    ∀ n : Nat, s.tickDue = false → s.d = some n →
      (n < fineTimeout s.params → s.nextLevel = .high →
        sequencerStep s =
          State.performed [.evRead .high]
            { s with line := s.line.tail, draws := s.draws + 1, d := some (n + 1), tickDue := true } ∧
        sequencerStep (sequencerStep s) =
          State.performed [.evRead .high, .evDelay s.params.durationTickUs]
            { s with line := s.line.tail, draws := s.draws + 1, d := some (n + 1) }) ∧
      (n = fineTimeout s.params → ∀ k i, s.byteIdx = some k → s.bitIdx = some i →
        sequencerStep s = s.fail (.bitTooLong k i))

/-- R35, R162, R163, R180: a LOW poll below the fine ceiling ends the bit, which is 1 when more than 3
HIGH polls were counted and lands at position 7 - BIT_IDX. R30: after the last `readByte` ACC holds no
value. -/
def Obligations.LowPollEndsTheBit : Prop :=
  ∀ (s : State) (n : Nat) (a : Byte) (k : Fin 5) (i : Fin 8),
    s.phase = .bMeasure → s.tickDue = false → s.d = some n → n < fineTimeout s.params → s.nextLevel = .low →
    s.acc = some a → s.byteIdx = some k → s.bitIdx = some i →
    (i < 7 → sequencerStep s =
      State.performed [.evRead .low]
        { s with line := s.line.tail, draws := s.draws + 1,
                 acc := some (setBit a (7 - i.val) (decide (3 < n))), bitIdx := some (i + 1),
                 phase := .bLow, c := some 0 }) ∧
    (i = 7 → k < 4 → sequencerStep s =
      State.performed [.evRead .low]
        { s with line := s.line.tail, draws := s.draws + 1,
                 frame := s.frame.set k (some (setBit a 0 (decide (3 < n)))), byteIdx := some (k + 1),
                 bitIdx := some 0, acc := some 0#8, phase := .bLow, c := some 0 }) ∧
    (i = 7 → k = 4 → sequencerStep s =
      State.performed [.evRead .low]
        { s with line := s.line.tail, draws := s.draws + 1,
                 frame := s.frame.set 4 (some (setBit a 0 (decide (3 < n)))),
                 acc := none, phase := .uCommit })

/-- R186, R187: the commit writes the cache whatever the checksum, then delivers the result. -/
def Obligations.CommitWritesTheCacheThenChecks : Prop :=
  ∀ (s : State) (b0 b1 b2 b3 b4 : Byte), s.phase = .uCommit →
    s.frame = #v[some b0, some b1, some b2, some b3, some b4] →
    sequencerStep s =
      { s with
        cacheH := some (b0 ++ b1)
        cacheT := some (signCorrect (b2 ++ b3))
        cacheWritten := true
        abort := some (if b0 + b1 + b2 + b3 = b4 then .noAbort else .checksumMismatch)
        result := some (decide (b0 + b1 + b2 + b3 = b4))
        phase := .idle
        responses := s.responses ++ [.updateResult (decide (b0 + b1 + b2 + b3 = b4))]
        frame := Vector.replicate 5 none
        acc := none
        byteIdx := none
        bitIdx := none
        c := none
        d := none }

/-! ### Values -/

/-- R162: the boundary of the pulse-width discriminator. -/
def Obligations.ClassifyThreshold : Prop :=
  ∀ d : Nat, (classify d = true ↔ 4 ≤ d) ∧ (classify d = false ↔ d ≤ 3)

/-- R167: a 1 bit can be received only when TIMEOUT is at least 50, and with TIMEOUT in 10..49 a line
that stays HIGH for 4 polls is too long. -/
def Obligations.OneBitsNeedAFineCeilingOfFive : Prop :=
  ∀ s : State,
    (∀ n, (measureHigh s).1 = some n → classify n = true → 50 ≤ s.params.timeout) ∧
    (10 ≤ s.params.timeout → s.params.timeout ≤ 49 →
      (∀ j < 4, s.answer j = .high) → (measureHigh s).1 = none)

/-- R185: the checksum is the sum of the four data bytes, and it wraps. -/
def Obligations.ChecksumIsTheWrappingSum : Prop :=
  ∀ b0 b1 b2 b3 b4 : Byte, checksumOK b0 b1 b2 b3 b4 = true ↔ b0 + b1 + b2 + b3 = b4

/-- R190: sign correction of either sign, for every magnitude. -/
def Obligations.SignCorrectionNegatesTheMagnitude : Prop :=
  ∀ m : Nat, m ≤ 0x7FFF →
    asInt16 (signCorrect (0x8000#16 ||| BitVec.ofNat 16 m)) = -(m : Int) ∧
    asInt16 (signCorrect (BitVec.ofNat 16 m)) = (m : Int)

/-- R79, R184: every raw temperature decodes to the value of its sign and magnitude, and the result is
never 0x8000. -/
def Obligations.SignCorrectionIsExact : Prop :=
  ∀ r : Word16, asInt16 (signCorrect r) = temperatureValue r ∧ signCorrect r ≠ 0x8000#16

/-- R52: two bytes are assembled with the first received as the most significant. -/
def Obligations.FieldsAreBigEndian : Prop :=
  ∀ hi lo : Byte, concat16 hi lo = hi ++ lo ∧ (concat16 hi lo).toNat = hi.toNat * 256 + lo.toNat

/-- R163: the bit received at index `i` lands at position 7 - i, and no other bit changes. -/
def Obligations.BitLandsAtItsPosition : Prop :=
  ∀ (v : Byte) (i : Fin 8) (b : Bool) (j : Nat), j < 8 →
    (setBit v (bitPosition i) b).getLsbD j = if j = 7 - i.val then b else v.getLsbD j

/-! ### The sampler and the discriminator -/

/-- R141: `WaitForPin` succeeds exactly when one of its first TIMEOUT reads matches; the first match at
read number `k + 1` takes `k + 1` reads and `k` delays, leaves `C = k` and reads nothing after. -/
def Obligations.WaitForPinSucceedsOnTheFirstMatch : Prop :=
  ∀ (target : Level) (s : State),
    ((waitForPin target s).1 = true ↔ ∃ k, k < s.params.timeout ∧ s.answer k = target) ∧
    ∀ k, k < s.params.timeout → s.answer k = target → (∀ j < k, s.answer j ≠ target) →
      waitForPin target s =
        (true, State.performed
          (((List.range k).flatMap fun j =>
              [Event.evRead (s.answer j), Event.evDelay s.params.samplerTickUs]) ++ [.evRead target])
          { s with c := some k, line := s.line.drop (k + 1), draws := s.draws + (k + 1) })

/-- R142: `WaitForPin` fails exactly when TIMEOUT reads in a row differ from the target; it then takes
exactly TIMEOUT reads and delays and leaves `C = TIMEOUT`. -/
def Obligations.WaitForPinTimesOutAtTheCeiling : Prop :=
  ∀ (target : Level) (s : State),
    ((waitForPin target s).1 = false ↔ ∀ k < s.params.timeout, s.answer k ≠ target) ∧
    ((∀ k < s.params.timeout, s.answer k ≠ target) →
      waitForPin target s =
        (false, State.performed
          ((List.range s.params.timeout).flatMap fun j =>
            [Event.evRead (s.answer j), Event.evDelay s.params.samplerTickUs])
          { s with
            c := some s.params.timeout
            line := s.line.drop s.params.timeout
            draws := s.draws + s.params.timeout }))

/-- R161: the two outcomes of `MeasureHigh`, with the reads and delays each takes. -/
def Obligations.MeasureHighOutcomes : Prop :=
  ∀ s : State,
    (∀ n, (measureHigh s).1 = some n ↔
      n < fineTimeout s.params ∧ (∀ j < n, s.answer j = .high) ∧ s.answer n = .low) ∧
    ((measureHigh s).1 = none ↔ ∀ j < fineTimeout s.params, s.answer j = .high) ∧
    (∀ n, (measureHigh s).1 = some n →
      (measureHigh s).2 =
        State.performed
          (((List.range n).flatMap fun _ =>
              [Event.evRead .high, Event.evDelay s.params.durationTickUs]) ++ [.evRead .low])
          { s with d := some n, line := s.line.drop (n + 1), draws := s.draws + (n + 1) }) ∧
    ((measureHigh s).1 = none →
      (measureHigh s).2 =
        State.performed
          ((List.range (fineTimeout s.params)).flatMap fun _ =>
            [Event.evRead .high, Event.evDelay s.params.durationTickUs])
          { s with
            d := some (fineTimeout s.params)
            line := s.line.drop (fineTimeout s.params)
            draws := s.draws + fineTimeout s.params })

/-! ### Whole-machine rules -/

/-- The invariant holds at power-on (R43). -/
def Obligations.ResetMeetsTheInvariant : Prop := State.reset.Inv

/-- From every state that meets the invariant, a step gives a state that meets it: a command in flight
has a bound handle, the line is OUT exactly while the wake pulse drives (R24, R149), the core
never drives HIGH (R25), the cache holds values exactly when CACHE_WRITTEN says so and never 0x8000
as a temperature (R26-R28, R184), the counters stay within their ceilings (R32, R33, R211), the frame
elements hold a value where they are read (R29-R31) and none at IDLE (R188), ACC none outside a `readByte`
(R30) and the indices none outside the frame phases (R31; that the commit is one of them is the model's
reading, log entry 23), a tick is due only after a poll that counted (log entry 7), EVENTS records exactly the
calls made (R40, R59), and FAULT holds at most one fault (R38, R203). -/
def Obligations.StepKeepsTheInvariant : Prop :=
  ∀ s t : State, s.Inv → step s = .next t → t.Inv

/-- R25, R36, R37, R40, R128: no step depends on what DIR, OUT_LEVEL, RESULT, ABORT or EVENTS hold: two
states that differ in them only (and in the model's record of the calls) take the same step up to them. R22:
PIN is read as the argument of the capability calls and for nothing else, so two states whose line lists the
next level take the same step up to PIN and those too; with no level listed the free draw depends on the pin
(the model's choice, log entry 3). -/
def Obligations.StepNeverReadsTheWriteOnlyElements : Prop :=
  ∀ s t : State,
    (s.unread = t.unread → mapOutcome State.unread (step s) = mapOutcome State.unread (step t)) ∧
    (s.unreadPin = t.unreadPin → s.line ≠ [] →
      mapOutcome State.unreadPin (step s) = mapOutcome State.unreadPin (step t))

/-- R26-R28, R109: only the commit writes the cache, and besides it only CONSTRUCT clears it. -/
def Obligations.OnlyCommitWritesTheCache : Prop :=
  ∀ s t : State, step s = .next t →
    (t.cacheT = s.cacheT ∧ t.cacheH = s.cacheH ∧ t.cacheWritten = s.cacheWritten) ∨
    (s.phase = .uCommit ∧ t.phase = .idle ∧ t.cacheWritten = true) ∨
    (∃ w pin rest, hostMove s = (some w, rest) ∧ decode w = .command (.construct pin) ∧
      s.phase = .idle ∧ t.cacheT = none ∧ t.cacheH = none ∧ t.cacheWritten = false)

/-- R25: OUT_LEVEL changes only at U_WAKE_DRIVE, to LOW, and at CONSTRUCT, to no value. -/
def Obligations.OutputLatchIsOnlyEverDrivenLow : Prop :=
  ∀ s t : State, step s = .next t →
    t.outLevel = s.outLevel ∨
    (s.phase = .uWakeDrive ∧ t.outLevel = some .low ∧ t.events = s.events ++ [.evWrite .low]) ∨
    (∃ w pin rest, hostMove s = (some w, rest) ∧ decode w = .command (.construct pin) ∧
      t.outLevel = none)

/-- R36: `true` is responded only from a commit whose checksum matches, and RESULT is what UPDATE
responded. -/
def Obligations.TrueComesOnlyFromAMatchingChecksum : Prop :=
  ∀ s t : State, step s = .next t → ∀ b, t.responses = s.responses ++ [.updateResult b] →
    t.result = some b ∧ t.phase = .idle ∧ (b = true → s.phase = .uCommit ∧ s.frameOK = true)

/-- R40: EVENTS is only appended to. R14 and D1: a step makes at most one capability call, and R40 has one
event a call. R22: each call is made on PIN, as the step leaves it, so CONSTRUCT's on the pin it binds. That
R14 decides this where R35 lists two calls in one row, and that the calls are kept in a list of the model, are
the model's reading (log entries 7 and 20). -/
def Obligations.EventsAreOnlyAppended : Prop :=
  ∀ s t : State, step s = .next t →
    ∃ es, es.length ≤ 1 ∧ t.events = s.events ++ es ∧ t.calls = s.calls ++ es.map (Event.callAt t.readPin)

/-- R214: a step of one instance leaves every other as it is, and no step leaves two of them on one line. -/
def Obligations.InstancesAreIndependent : Prop :=
  ∀ (cores cores' : List State) (k : Nat), stepInstance k cores = .next cores' →
    cores'.length = cores.length ∧ (∀ j, j ≠ k → cores'[j]? = cores[j]?) ∧
    (∀ s, cores[k]? = some s → ∃ t, step s = .next t ∧ cores'[k]? = some t) ∧
    exclusiveLines cores = true ∧ exclusiveLines cores' = true

/-- R214, R217, R234, item 15 of 93: a host that binds a line another handle holds has no move, so the step
that would bind it is refused. Every other step of an instance is taken. -/
def Obligations.SharedLineIsRefused : Prop :=
  ∀ (cores : List State) (k : Nat) (s t : State), exclusiveLines cores = true → cores[k]? = some s →
    step s = .next t →
    ((∃ j r p, j ≠ k ∧ cores[j]? = some r ∧ r.pin = some p ∧ t.pin = some p) →
      stepInstance k cores = .refused .sharedLine) ∧
    ((∀ j r p, j ≠ k → cores[j]? = some r → r.pin = some p → t.pin ≠ some p) →
      stepInstance k cores = .next (cores.set k t))

/-! ### Runs of UPDATE -/

/-- R127: the handshake, with any number of further polls below the ceiling in each of its three waits.
The events are exactly those of R127, in order. The count of steps is the model's: a poll that goes on is two
steps, its read and its delay (log entry 7). -/
def Obligations.HandshakeEventsInOrder : Prop :=
  ∀ (s : State) (i l h : Nat) (rest : List Level),
    s.ready = true → s.tickDue = false → s.handleExists = true → s.disciplined = true →
    i < s.params.timeout → l < s.params.timeout → h < s.params.timeout →
    s.line = handshakeLevels i l h ++ rest →
    ∃ t0, exec .update s = .next t0 ∧ run (2 * (i + l + h) + 8) t0 = .next
      (State.performed
        ((List.replicate i [Event.evRead .low, Event.evDelay s.params.samplerTickUs]).flatten ++
          [.evRead .high, .evMode .output, .evWrite .low, .evDelay 1000, .evMode .input, .evDelay 10] ++
          (List.replicate l [Event.evRead .high, Event.evDelay s.params.samplerTickUs]).flatten ++
          [.evRead .low] ++
          (List.replicate h [Event.evRead .low, Event.evDelay s.params.samplerTickUs]).flatten ++
          [.evRead .high])
        { s with
          abort := some .noAbort
          dir := some .input
          outLevel := some .low
          phase := .bLow
          c := some 0
          byteIdx := some 0
          bitIdx := some 0
          acc := some 0#8
          line := rest
          draws := s.draws + (i + l + h + 3) })

/-- R164, R166: one bit received within the ceilings takes `a + b + d + 3` reads and `a + b + d` delays,
and its value is `classify(d)`. The count of steps is the model's: a poll that goes on is two steps (log entry
7). -/
def Obligations.BitIsReceived : Prop :=
  ∀ (s : State) (tm : BitTiming) (rest : List Level) (v : Byte) (k : Fin 5) (i : Fin 8),
    s.runnable = true → s.disciplined = true → s.phase = .bLow → s.tickDue = false → s.c = some 0 →
    s.acc = some v → s.byteIdx = some k → s.bitIdx = some i →
    tm.within s.params = true → s.line = bitLevels tm ++ rest →
    ∃ t, run (2 * (tm.a + tm.b + tm.d) + 3) s = .next t ∧ t.line = rest ∧ t.tickDue = false ∧
      readCount t.events = readCount s.events + (tm.a + tm.b + tm.d + 3) ∧
      delayCount t.events = delayCount s.events + (tm.a + tm.b + tm.d) ∧
      t.responses = s.responses ∧ t.fault = s.fault ∧
      (i < 7 → t.phase = .bLow ∧ t.c = some 0 ∧ t.byteIdx = some k ∧ t.bitIdx = some (i + 1) ∧
        t.acc = some (setBit v (7 - i.val) (classify tm.d)) ∧ t.frame = s.frame) ∧
      (i = 7 → k < 4 → t.phase = .bLow ∧ t.c = some 0 ∧ t.byteIdx = some (k + 1) ∧
        t.bitIdx = some 0 ∧ t.acc = some 0#8 ∧
        t.frame = s.frame.set k (some (setBit v 0 (classify tm.d)))) ∧
      (i = 7 → k = 4 → t.phase = .uCommit ∧ t.acc = none ∧
        t.frame = s.frame.set 4 (some (setBit v 0 (classify tm.d))))

/-- R181: an UPDATE that fails before the commit leaves the cache as it was; its result is false. -/
def Obligations.FailureBeforeCommitLeavesTheCache : Prop :=
  ∀ s : State, (updateCall s).abort ≠ some .noAbort → (updateCall s).abort ≠ some .checksumMismatch →
    (updateCall s).result = some false ∧ (updateCall s).cacheT = s.cacheT ∧
    (updateCall s).cacheH = s.cacheH ∧ (updateCall s).cacheWritten = s.cacheWritten

/-- R35, R104, R108, R120-R125, R140, R160, R164, R180, R186, R187: the machine's steps of an UPDATE,
from its acceptance to its response, end in exactly the state that the rules' own pseudocode gives. The
bound on the steps, twice the most line reads of R241 and 6 more, counts a read and its delay as two (log
entries 7 and 8). -/
def Obligations.UpdateRunsTheRulesPseudocode : Prop :=
  ∀ s : State, s.ready = true → s.tickDue = false → s.handleExists = true → s.disciplined = true →
    ∃ t0 n, exec .update s = .next t0 ∧ n ≤ 2 * updateReadBound s.params + 6 ∧
      run n t0 = .next (updateCall s)

/-- R241, R104: every UPDATE ends with one response, whatever the line does, after at most the line reads
of R241; a successful one makes at least 123. -/
def Obligations.UpdateAlwaysResponds : Prop :=
  ∀ s : State, s.ready = true → s.tickDue = false → s.handleExists = true → s.disciplined = true →
    ∃ t0 n t es b, exec .update s = .next t0 ∧ run n t0 = .next t ∧
      t.phase = .idle ∧ t.fault = [] ∧ t.dir = (if t.abort = some .idleTimeout then s.dir else some .input) ∧
      t.result = some b ∧ t.responses = s.responses ++ [.updateResult b] ∧
      t.events = s.events ++ es ∧ readCount es ≤ updateReadBound s.params ∧
      (b = true → 123 ≤ readCount es)

/-- R234, R242: a host that issues CONSTRUCT and then UPDATE, waiting for each response, ends its run
successfully, whatever the line does: two responses, IDLE and no fault. -/
def Obligations.ConstructThenUpdateEndsSuccessfully : Prop :=
  ∀ (s : State) (pin : Byte), s.ready = true → s.tickDue = false →
    s.host = [.issue (encode (.construct pin)), .issue (encode .update)] →
    ∃ n t b, run n s = .next t ∧ t.endedSuccessfully = true ∧ t.pin = some pin ∧
      t.responses = s.responses ++ [.completion, .updateResult b] ∧ t.result = some b

/-- R189 with R77-R81: whatever frame the line carries within the ceilings, with any timing of its bits,
UPDATE caches its fields and responds whether its checksum matches. -/
def Obligations.FrameOnTheLineIsDecoded : Prop :=
  ∀ (s : State) (i l h : Nat) (timing : Fin 5 → Fin 8 → BitTiming) (f : Fin 5 → Byte)
    (rest : List Level),
    s.ready = true → s.tickDue = false → s.handleExists = true → s.disciplined = true →
    i < s.params.timeout → l < s.params.timeout → h < s.params.timeout →
    (∀ k j, (timing k j).within s.params = true) → sends timing f →
    s.line = handshakeLevels i l h ++ frameLevels timing ++ rest →
    ∃ t0 n t, exec .update s = .next t0 ∧ run n t0 = .next t ∧
      t.phase = .idle ∧ t.fault = [] ∧ t.line = rest ∧ t.cacheWritten = true ∧
      t.cacheH = some (f 0 ++ f 1) ∧ t.cacheT = some (signCorrect (f 2 ++ f 3)) ∧
      asInt16 (signCorrect (f 2 ++ f 3)) = temperatureValue (f 2 ++ f 3) ∧
      t.result = some (decide (f 0 + f 1 + f 2 + f 3 = f 4)) ∧
      t.responses = s.responses ++ [.updateResult (decide (f 0 + f 1 + f 2 + f 3 = f 4))] ∧
      t.abort = some (if f 0 + f 1 + f 2 + f 3 = f 4 then .noAbort else .checksumMismatch) ∧
      t.dir = some .input ∧ t.outLevel = some .low
end

