-- ==== Sys2Proof/Laws/Decode.lean ====
section
/-! SUPPORT. The fields of a command word, and what the decoder's answers mean. -/

namespace Sys2Proof

/-- Bit `i` of a command word, from its fields. -/
theorem getLsbD_commandWord (opd opc : Byte) (i : Nat) :
    (commandWord opd opc).getLsbD i = if i < 8 then opc.getLsbD i else opd.getLsbD (i - 8) :=
  BitVec.getLsbD_append

@[simp] theorem opcodeField_commandWord (opd opc : Byte) : opcodeField (commandWord opd opc) = opc := by
  unfold opcodeField
  ext i hi
  simp [getLsbD_commandWord, hi, ← BitVec.getLsbD_eq_getElem]

@[simp] theorem operandField_commandWord (opd opc : Byte) : operandField (commandWord opd opc) = opd := by
  unfold operandField
  ext i hi
  simp [getLsbD_commandWord, hi, ← BitVec.getLsbD_eq_getElem]

/-- A word is its two fields. -/
theorem commandWord_fields (w : Word16) : commandWord (operandField w) (opcodeField w) = w := by
  unfold commandWord operandField opcodeField
  apply BitVec.eq_of_getLsbD_eq
  intro i hi
  rw [BitVec.getLsbD_append]
  by_cases h : i < 8
  · simp [h]
  · have h8 : i - 8 < 8 := by omega
    have hs : 8 + (i - 8) = i := by omega
    simp [h, h8, hs]

/-- What the fields of a word are when the decoder reads each command from it. -/
theorem decode_command_fields {w : Word16} {i : Instr} (h : decode w = .command i) :
    opcodeField w = opcodeOf i ∧ operandField w = operandOf i := by
  unfold decode at h
  simp only at h
  split at h
  · next h1 => cases h; exact ⟨h1, rfl⟩
  · split at h
    · next h2 => cases h; exact h2
    · split at h
      · next h3 => cases h; exact h3
      · split at h
        · next h4 => cases h; exact h4
        · cases h

/-- A refused word is refused as itself. -/
theorem decode_illegal_word {w v : Word16} (h : decode w = .illegal v) : v = w := by
  unfold decode at h
  simp only at h
  split at h
  · cases h
  · split at h
    · cases h
    · split at h
      · cases h
      · split at h
        · cases h
        · cases h; rfl

@[simp] theorem decodeTableWord_eq_some {n w : Nat} {i : Instr} :
    decodeTableWord n w = some i ↔ decode (tableWord n w) = .command i := by
  unfold decodeTableWord
  split
  · next j h => simp [h]
  · next v h => simp [h]

end Sys2Proof
end

