-- ==== Sys2Proof/Laws/Instances.lean ====
section
/-! SUPPORT. What one line to one handle means, and everything a step of one instance can do. -/

namespace Sys2Proof.Machine

/-- No two handles hold one pin. -/
theorem exclusiveLines_iff {cores : List State} :
    exclusiveLines cores = true ↔
      ∀ (i j : Nat) (s t : State) (p : Byte), i ≠ j → cores[i]? = some s → cores[j]? = some t →
        s.pin = some p → t.pin ≠ some p := by
  unfold exclusiveLines
  rw [decide_eq_true_iff]
  unfold List.Nodup
  rw [List.pairwise_filterMap, List.pairwise_iff_getElem]
  constructor
  · intro h i j s t p hij hi hj hs ht
    obtain ⟨hil, rfl⟩ := List.getElem?_eq_some_iff.mp hi
    obtain ⟨hjl, rfl⟩ := List.getElem?_eq_some_iff.mp hj
    rcases Nat.lt_or_gt_of_ne hij with hlt | hlt
    · exact h i j hil hjl hlt p hs p ht rfl
    · exact h j i hjl hil hlt p ht p hs rfl
  · rintro h i j hi hj hij a ha b hb rfl
    exact h i j _ _ a (Nat.ne_of_lt hij) (List.getElem?_eq_getElem hi) (List.getElem?_eq_getElem hj) ha hb

theorem onExclusiveLines_next {cores cores' : List State} {k : Host.Outcome (List State) Fault Refusal}
    (h : onExclusiveLines cores k = .next cores') : exclusiveLines cores = true ∧ k = .next cores' := by
  unfold onExclusiveLines at h
  split at h
  · next hx => exact ⟨hx, h⟩
  · cases h

/-- A step of instance `k` puts its core's next state in place, if every line stays with one handle. -/
theorem stepInstance_of_next {cores : List State} {k : Nat} {s t : State} (hx : exclusiveLines cores = true)
    (hk : cores[k]? = some s) (hs : step s = .next t) :
    stepInstance k cores = onExclusiveLines (cores.set k t) (.next (cores.set k t)) := by
  simp [stepInstance, onExclusiveLines, hx, hk, hs]

/-- Everything a step of one instance can do when it answers a next state. -/
theorem stepInstance_next {cores cores' : List State} {k : Nat} (h : stepInstance k cores = .next cores') :
    exclusiveLines cores = true ∧
      ((cores[k]? = none ∧ cores' = cores) ∨
       (∃ s t, cores[k]? = some s ∧ step s = .next t ∧ cores' = cores.set k t ∧
         exclusiveLines cores' = true)) := by
  obtain ⟨hx, h⟩ := onExclusiveLines_next h
  refine ⟨hx, ?_⟩
  cases hk : cores[k]? with
  | none =>
    rw [hk] at h
    cases h
    exact .inl ⟨rfl, rfl⟩
  | some s =>
    simp only [hk] at h
    cases hs : step s with
    | next t =>
      simp only [hs] at h
      obtain ⟨hx', h⟩ := onExclusiveLines_next h
      cases h
      exact .inr ⟨s, t, rfl, hs, rfl, hx'⟩
    | fault r => simp [hs] at h
    | refused r => simp [hs] at h

end Sys2Proof.Machine
end

