-- ==== Sys2Proof/Laws/State.lean ====
section
/-! SUPPORT. What each named update of the state does to each field: one lemma per field per update,
true by rfl, so that no later proof unfolds a record update. -/

namespace Sys2Proof.Machine.State

variable (s : State)

/-! ### `record` -/

@[simp] theorem record_handleExists (e : Event) : (s.record e).handleExists = s.handleExists := rfl
@[simp] theorem record_pin (e : Event) : (s.record e).pin = s.pin := rfl
@[simp] theorem record_dir (e : Event) : (s.record e).dir = s.dir := rfl
@[simp] theorem record_outLevel (e : Event) : (s.record e).outLevel = s.outLevel := rfl
@[simp] theorem record_cacheT (e : Event) : (s.record e).cacheT = s.cacheT := rfl
@[simp] theorem record_cacheH (e : Event) : (s.record e).cacheH = s.cacheH := rfl
@[simp] theorem record_cacheWritten (e : Event) : (s.record e).cacheWritten = s.cacheWritten := rfl
@[simp] theorem record_frame (e : Event) : (s.record e).frame = s.frame := rfl
@[simp] theorem record_acc (e : Event) : (s.record e).acc = s.acc := rfl
@[simp] theorem record_byteIdx (e : Event) : (s.record e).byteIdx = s.byteIdx := rfl
@[simp] theorem record_bitIdx (e : Event) : (s.record e).bitIdx = s.bitIdx := rfl
@[simp] theorem record_c (e : Event) : (s.record e).c = s.c := rfl
@[simp] theorem record_d (e : Event) : (s.record e).d = s.d := rfl
@[simp] theorem record_phase (e : Event) : (s.record e).phase = s.phase := rfl
@[simp] theorem record_result (e : Event) : (s.record e).result = s.result := rfl
@[simp] theorem record_abort (e : Event) : (s.record e).abort = s.abort := rfl
@[simp] theorem record_fault (e : Event) : (s.record e).fault = s.fault := rfl
@[simp] theorem record_events (e : Event) : (s.record e).events = s.events ++ [e] := rfl
@[simp] theorem record_params (e : Event) : (s.record e).params = s.params := rfl
@[simp] theorem record_line (e : Event) : (s.record e).line = s.line := rfl
@[simp] theorem record_draws (e : Event) : (s.record e).draws = s.draws := rfl
@[simp] theorem record_tickDue (e : Event) : (s.record e).tickDue = s.tickDue := rfl
@[simp] theorem record_calls (e : Event) : (s.record e).calls = s.calls ++ [e.callAt s.readPin] := rfl
@[simp] theorem record_readPin (e : Event) : (s.record e).readPin = s.readPin := rfl
@[simp] theorem record_host (e : Event) : (s.record e).host = s.host := rfl
@[simp] theorem record_responses (e : Event) : (s.record e).responses = s.responses := rfl

/-! ### `afterRead` -/

@[simp] theorem afterRead_handleExists : (s.afterRead).handleExists = s.handleExists := rfl
@[simp] theorem afterRead_pin : (s.afterRead).pin = s.pin := rfl
@[simp] theorem afterRead_dir : (s.afterRead).dir = s.dir := rfl
@[simp] theorem afterRead_outLevel : (s.afterRead).outLevel = s.outLevel := rfl
@[simp] theorem afterRead_cacheT : (s.afterRead).cacheT = s.cacheT := rfl
@[simp] theorem afterRead_cacheH : (s.afterRead).cacheH = s.cacheH := rfl
@[simp] theorem afterRead_cacheWritten : (s.afterRead).cacheWritten = s.cacheWritten := rfl
@[simp] theorem afterRead_frame : (s.afterRead).frame = s.frame := rfl
@[simp] theorem afterRead_acc : (s.afterRead).acc = s.acc := rfl
@[simp] theorem afterRead_byteIdx : (s.afterRead).byteIdx = s.byteIdx := rfl
@[simp] theorem afterRead_bitIdx : (s.afterRead).bitIdx = s.bitIdx := rfl
@[simp] theorem afterRead_c : (s.afterRead).c = s.c := rfl
@[simp] theorem afterRead_d : (s.afterRead).d = s.d := rfl
@[simp] theorem afterRead_phase : (s.afterRead).phase = s.phase := rfl
@[simp] theorem afterRead_result : (s.afterRead).result = s.result := rfl
@[simp] theorem afterRead_abort : (s.afterRead).abort = s.abort := rfl
@[simp] theorem afterRead_fault : (s.afterRead).fault = s.fault := rfl
@[simp] theorem afterRead_events : (s.afterRead).events = s.events ++ [.evRead s.nextLevel] := rfl
@[simp] theorem afterRead_params : (s.afterRead).params = s.params := rfl
@[simp] theorem afterRead_line : (s.afterRead).line = s.line.tail := rfl
@[simp] theorem afterRead_draws : (s.afterRead).draws = s.draws + 1 := rfl
@[simp] theorem afterRead_tickDue : (s.afterRead).tickDue = s.tickDue := rfl
@[simp] theorem afterRead_calls : (s.afterRead).calls = s.calls ++ [.read s.readPin s.nextLevel] := rfl
@[simp] theorem afterRead_readPin : (s.afterRead).readPin = s.readPin := rfl
@[simp] theorem afterRead_host : (s.afterRead).host = s.host := rfl
@[simp] theorem afterRead_responses : (s.afterRead).responses = s.responses := rfl

/-! ### `setMode` -/

@[simp] theorem setMode_handleExists (m : Mode) : (s.setMode m).handleExists = s.handleExists := rfl
@[simp] theorem setMode_pin (m : Mode) : (s.setMode m).pin = s.pin := rfl
@[simp] theorem setMode_dir (m : Mode) : (s.setMode m).dir = some m := rfl
@[simp] theorem setMode_outLevel (m : Mode) : (s.setMode m).outLevel = s.outLevel := rfl
@[simp] theorem setMode_cacheT (m : Mode) : (s.setMode m).cacheT = s.cacheT := rfl
@[simp] theorem setMode_cacheH (m : Mode) : (s.setMode m).cacheH = s.cacheH := rfl
@[simp] theorem setMode_cacheWritten (m : Mode) : (s.setMode m).cacheWritten = s.cacheWritten := rfl
@[simp] theorem setMode_frame (m : Mode) : (s.setMode m).frame = s.frame := rfl
@[simp] theorem setMode_acc (m : Mode) : (s.setMode m).acc = s.acc := rfl
@[simp] theorem setMode_byteIdx (m : Mode) : (s.setMode m).byteIdx = s.byteIdx := rfl
@[simp] theorem setMode_bitIdx (m : Mode) : (s.setMode m).bitIdx = s.bitIdx := rfl
@[simp] theorem setMode_c (m : Mode) : (s.setMode m).c = s.c := rfl
@[simp] theorem setMode_d (m : Mode) : (s.setMode m).d = s.d := rfl
@[simp] theorem setMode_phase (m : Mode) : (s.setMode m).phase = s.phase := rfl
@[simp] theorem setMode_result (m : Mode) : (s.setMode m).result = s.result := rfl
@[simp] theorem setMode_abort (m : Mode) : (s.setMode m).abort = s.abort := rfl
@[simp] theorem setMode_fault (m : Mode) : (s.setMode m).fault = s.fault := rfl
@[simp] theorem setMode_events (m : Mode) : (s.setMode m).events = s.events ++ [.evMode m] := rfl
@[simp] theorem setMode_params (m : Mode) : (s.setMode m).params = s.params := rfl
@[simp] theorem setMode_line (m : Mode) : (s.setMode m).line = s.line := rfl
@[simp] theorem setMode_draws (m : Mode) : (s.setMode m).draws = s.draws := rfl
@[simp] theorem setMode_tickDue (m : Mode) : (s.setMode m).tickDue = s.tickDue := rfl
@[simp] theorem setMode_calls (m : Mode) : (s.setMode m).calls = s.calls ++ [.setMode s.readPin m] := rfl
@[simp] theorem setMode_readPin (m : Mode) : (s.setMode m).readPin = s.readPin := rfl
@[simp] theorem setMode_host (m : Mode) : (s.setMode m).host = s.host := rfl
@[simp] theorem setMode_responses (m : Mode) : (s.setMode m).responses = s.responses := rfl

/-! ### `lineWrite` -/

@[simp] theorem lineWrite_handleExists (l : Level) : (s.lineWrite l).handleExists = s.handleExists := rfl
@[simp] theorem lineWrite_pin (l : Level) : (s.lineWrite l).pin = s.pin := rfl
@[simp] theorem lineWrite_dir (l : Level) : (s.lineWrite l).dir = s.dir := rfl
@[simp] theorem lineWrite_outLevel (l : Level) : (s.lineWrite l).outLevel = some l := rfl
@[simp] theorem lineWrite_cacheT (l : Level) : (s.lineWrite l).cacheT = s.cacheT := rfl
@[simp] theorem lineWrite_cacheH (l : Level) : (s.lineWrite l).cacheH = s.cacheH := rfl
@[simp] theorem lineWrite_cacheWritten (l : Level) : (s.lineWrite l).cacheWritten = s.cacheWritten := rfl
@[simp] theorem lineWrite_frame (l : Level) : (s.lineWrite l).frame = s.frame := rfl
@[simp] theorem lineWrite_acc (l : Level) : (s.lineWrite l).acc = s.acc := rfl
@[simp] theorem lineWrite_byteIdx (l : Level) : (s.lineWrite l).byteIdx = s.byteIdx := rfl
@[simp] theorem lineWrite_bitIdx (l : Level) : (s.lineWrite l).bitIdx = s.bitIdx := rfl
@[simp] theorem lineWrite_c (l : Level) : (s.lineWrite l).c = s.c := rfl
@[simp] theorem lineWrite_d (l : Level) : (s.lineWrite l).d = s.d := rfl
@[simp] theorem lineWrite_phase (l : Level) : (s.lineWrite l).phase = s.phase := rfl
@[simp] theorem lineWrite_result (l : Level) : (s.lineWrite l).result = s.result := rfl
@[simp] theorem lineWrite_abort (l : Level) : (s.lineWrite l).abort = s.abort := rfl
@[simp] theorem lineWrite_fault (l : Level) : (s.lineWrite l).fault = s.fault := rfl
@[simp] theorem lineWrite_events (l : Level) : (s.lineWrite l).events = s.events ++ [.evWrite l] := rfl
@[simp] theorem lineWrite_params (l : Level) : (s.lineWrite l).params = s.params := rfl
@[simp] theorem lineWrite_line (l : Level) : (s.lineWrite l).line = s.line := rfl
@[simp] theorem lineWrite_draws (l : Level) : (s.lineWrite l).draws = s.draws := rfl
@[simp] theorem lineWrite_tickDue (l : Level) : (s.lineWrite l).tickDue = s.tickDue := rfl
@[simp] theorem lineWrite_calls (l : Level) : (s.lineWrite l).calls = s.calls ++ [.write s.readPin l] := rfl
@[simp] theorem lineWrite_readPin (l : Level) : (s.lineWrite l).readPin = s.readPin := rfl
@[simp] theorem lineWrite_host (l : Level) : (s.lineWrite l).host = s.host := rfl
@[simp] theorem lineWrite_responses (l : Level) : (s.lineWrite l).responses = s.responses := rfl

/-! ### `delay` -/

@[simp] theorem delay_handleExists (us : Nat) : (s.delay us).handleExists = s.handleExists := rfl
@[simp] theorem delay_pin (us : Nat) : (s.delay us).pin = s.pin := rfl
@[simp] theorem delay_dir (us : Nat) : (s.delay us).dir = s.dir := rfl
@[simp] theorem delay_outLevel (us : Nat) : (s.delay us).outLevel = s.outLevel := rfl
@[simp] theorem delay_cacheT (us : Nat) : (s.delay us).cacheT = s.cacheT := rfl
@[simp] theorem delay_cacheH (us : Nat) : (s.delay us).cacheH = s.cacheH := rfl
@[simp] theorem delay_cacheWritten (us : Nat) : (s.delay us).cacheWritten = s.cacheWritten := rfl
@[simp] theorem delay_frame (us : Nat) : (s.delay us).frame = s.frame := rfl
@[simp] theorem delay_acc (us : Nat) : (s.delay us).acc = s.acc := rfl
@[simp] theorem delay_byteIdx (us : Nat) : (s.delay us).byteIdx = s.byteIdx := rfl
@[simp] theorem delay_bitIdx (us : Nat) : (s.delay us).bitIdx = s.bitIdx := rfl
@[simp] theorem delay_c (us : Nat) : (s.delay us).c = s.c := rfl
@[simp] theorem delay_d (us : Nat) : (s.delay us).d = s.d := rfl
@[simp] theorem delay_phase (us : Nat) : (s.delay us).phase = s.phase := rfl
@[simp] theorem delay_result (us : Nat) : (s.delay us).result = s.result := rfl
@[simp] theorem delay_abort (us : Nat) : (s.delay us).abort = s.abort := rfl
@[simp] theorem delay_fault (us : Nat) : (s.delay us).fault = s.fault := rfl
@[simp] theorem delay_events (us : Nat) : (s.delay us).events = s.events ++ [.evDelay us] := rfl
@[simp] theorem delay_params (us : Nat) : (s.delay us).params = s.params := rfl
@[simp] theorem delay_line (us : Nat) : (s.delay us).line = s.line := rfl
@[simp] theorem delay_draws (us : Nat) : (s.delay us).draws = s.draws := rfl
@[simp] theorem delay_tickDue (us : Nat) : (s.delay us).tickDue = s.tickDue := rfl
@[simp] theorem delay_calls (us : Nat) : (s.delay us).calls = s.calls ++ [.delayMicroseconds us] := rfl
@[simp] theorem delay_readPin (us : Nat) : (s.delay us).readPin = s.readPin := rfl
@[simp] theorem delay_host (us : Nat) : (s.delay us).host = s.host := rfl
@[simp] theorem delay_responses (us : Nat) : (s.delay us).responses = s.responses := rfl

/-! ### `countPoll` -/

@[simp] theorem countPoll_handleExists : (s.countPoll).handleExists = s.handleExists := rfl
@[simp] theorem countPoll_pin : (s.countPoll).pin = s.pin := rfl
@[simp] theorem countPoll_dir : (s.countPoll).dir = s.dir := rfl
@[simp] theorem countPoll_outLevel : (s.countPoll).outLevel = s.outLevel := rfl
@[simp] theorem countPoll_cacheT : (s.countPoll).cacheT = s.cacheT := rfl
@[simp] theorem countPoll_cacheH : (s.countPoll).cacheH = s.cacheH := rfl
@[simp] theorem countPoll_cacheWritten : (s.countPoll).cacheWritten = s.cacheWritten := rfl
@[simp] theorem countPoll_frame : (s.countPoll).frame = s.frame := rfl
@[simp] theorem countPoll_acc : (s.countPoll).acc = s.acc := rfl
@[simp] theorem countPoll_byteIdx : (s.countPoll).byteIdx = s.byteIdx := rfl
@[simp] theorem countPoll_bitIdx : (s.countPoll).bitIdx = s.bitIdx := rfl
@[simp] theorem countPoll_c : (s.countPoll).c = some (s.readC + 1) := rfl
@[simp] theorem countPoll_d : (s.countPoll).d = s.d := rfl
@[simp] theorem countPoll_phase : (s.countPoll).phase = s.phase := rfl
@[simp] theorem countPoll_result : (s.countPoll).result = s.result := rfl
@[simp] theorem countPoll_abort : (s.countPoll).abort = s.abort := rfl
@[simp] theorem countPoll_fault : (s.countPoll).fault = s.fault := rfl
@[simp] theorem countPoll_events : (s.countPoll).events = s.events ++ [.evRead s.nextLevel] := rfl
@[simp] theorem countPoll_params : (s.countPoll).params = s.params := rfl
@[simp] theorem countPoll_line : (s.countPoll).line = s.line.tail := rfl
@[simp] theorem countPoll_draws : (s.countPoll).draws = s.draws + 1 := rfl
@[simp] theorem countPoll_host : (s.countPoll).host = s.host := rfl
@[simp] theorem countPoll_responses : (s.countPoll).responses = s.responses := rfl
@[simp] theorem countPoll_tickDue : (s.countPoll).tickDue = true := rfl
@[simp] theorem countPoll_calls : (s.countPoll).calls = s.calls ++ [.read s.readPin s.nextLevel] := rfl
@[simp] theorem countPoll_readPin : (s.countPoll).readPin = s.readPin := rfl

/-! ### `countHigh` -/

@[simp] theorem countHigh_handleExists : (s.countHigh).handleExists = s.handleExists := rfl
@[simp] theorem countHigh_pin : (s.countHigh).pin = s.pin := rfl
@[simp] theorem countHigh_dir : (s.countHigh).dir = s.dir := rfl
@[simp] theorem countHigh_outLevel : (s.countHigh).outLevel = s.outLevel := rfl
@[simp] theorem countHigh_cacheT : (s.countHigh).cacheT = s.cacheT := rfl
@[simp] theorem countHigh_cacheH : (s.countHigh).cacheH = s.cacheH := rfl
@[simp] theorem countHigh_cacheWritten : (s.countHigh).cacheWritten = s.cacheWritten := rfl
@[simp] theorem countHigh_frame : (s.countHigh).frame = s.frame := rfl
@[simp] theorem countHigh_acc : (s.countHigh).acc = s.acc := rfl
@[simp] theorem countHigh_byteIdx : (s.countHigh).byteIdx = s.byteIdx := rfl
@[simp] theorem countHigh_bitIdx : (s.countHigh).bitIdx = s.bitIdx := rfl
@[simp] theorem countHigh_c : (s.countHigh).c = s.c := rfl
@[simp] theorem countHigh_d : (s.countHigh).d = some (s.readD + 1) := rfl
@[simp] theorem countHigh_phase : (s.countHigh).phase = s.phase := rfl
@[simp] theorem countHigh_result : (s.countHigh).result = s.result := rfl
@[simp] theorem countHigh_abort : (s.countHigh).abort = s.abort := rfl
@[simp] theorem countHigh_fault : (s.countHigh).fault = s.fault := rfl
@[simp] theorem countHigh_events : (s.countHigh).events = s.events ++ [.evRead s.nextLevel] := rfl
@[simp] theorem countHigh_params : (s.countHigh).params = s.params := rfl
@[simp] theorem countHigh_line : (s.countHigh).line = s.line.tail := rfl
@[simp] theorem countHigh_draws : (s.countHigh).draws = s.draws + 1 := rfl
@[simp] theorem countHigh_host : (s.countHigh).host = s.host := rfl
@[simp] theorem countHigh_responses : (s.countHigh).responses = s.responses := rfl
@[simp] theorem countHigh_tickDue : (s.countHigh).tickDue = true := rfl
@[simp] theorem countHigh_calls : (s.countHigh).calls = s.calls ++ [.read s.readPin s.nextLevel] := rfl
@[simp] theorem countHigh_readPin : (s.countHigh).readPin = s.readPin := rfl

/-! ### `tick` -/

@[simp] theorem tick_handleExists (us : Nat) : (s.tick us).handleExists = s.handleExists := rfl
@[simp] theorem tick_pin (us : Nat) : (s.tick us).pin = s.pin := rfl
@[simp] theorem tick_dir (us : Nat) : (s.tick us).dir = s.dir := rfl
@[simp] theorem tick_outLevel (us : Nat) : (s.tick us).outLevel = s.outLevel := rfl
@[simp] theorem tick_cacheT (us : Nat) : (s.tick us).cacheT = s.cacheT := rfl
@[simp] theorem tick_cacheH (us : Nat) : (s.tick us).cacheH = s.cacheH := rfl
@[simp] theorem tick_cacheWritten (us : Nat) : (s.tick us).cacheWritten = s.cacheWritten := rfl
@[simp] theorem tick_frame (us : Nat) : (s.tick us).frame = s.frame := rfl
@[simp] theorem tick_acc (us : Nat) : (s.tick us).acc = s.acc := rfl
@[simp] theorem tick_byteIdx (us : Nat) : (s.tick us).byteIdx = s.byteIdx := rfl
@[simp] theorem tick_bitIdx (us : Nat) : (s.tick us).bitIdx = s.bitIdx := rfl
@[simp] theorem tick_c (us : Nat) : (s.tick us).c = s.c := rfl
@[simp] theorem tick_d (us : Nat) : (s.tick us).d = s.d := rfl
@[simp] theorem tick_phase (us : Nat) : (s.tick us).phase = s.phase := rfl
@[simp] theorem tick_result (us : Nat) : (s.tick us).result = s.result := rfl
@[simp] theorem tick_abort (us : Nat) : (s.tick us).abort = s.abort := rfl
@[simp] theorem tick_fault (us : Nat) : (s.tick us).fault = s.fault := rfl
@[simp] theorem tick_events (us : Nat) : (s.tick us).events = s.events ++ [.evDelay us] := rfl
@[simp] theorem tick_params (us : Nat) : (s.tick us).params = s.params := rfl
@[simp] theorem tick_line (us : Nat) : (s.tick us).line = s.line := rfl
@[simp] theorem tick_draws (us : Nat) : (s.tick us).draws = s.draws := rfl
@[simp] theorem tick_host (us : Nat) : (s.tick us).host = s.host := rfl
@[simp] theorem tick_responses (us : Nat) : (s.tick us).responses = s.responses := rfl
@[simp] theorem tick_tickDue (us : Nat) : (s.tick us).tickDue = false := rfl
@[simp] theorem tick_calls (us : Nat) : (s.tick us).calls = s.calls ++ [.delayMicroseconds us] := rfl
@[simp] theorem tick_readPin (us : Nat) : (s.tick us).readPin = s.readPin := rfl

/-! ### `goto` -/

@[simp] theorem goto_handleExists (p : Phase) : (s.goto p).handleExists = s.handleExists := rfl
@[simp] theorem goto_pin (p : Phase) : (s.goto p).pin = s.pin := rfl
@[simp] theorem goto_dir (p : Phase) : (s.goto p).dir = s.dir := rfl
@[simp] theorem goto_outLevel (p : Phase) : (s.goto p).outLevel = s.outLevel := rfl
@[simp] theorem goto_cacheT (p : Phase) : (s.goto p).cacheT = s.cacheT := rfl
@[simp] theorem goto_cacheH (p : Phase) : (s.goto p).cacheH = s.cacheH := rfl
@[simp] theorem goto_cacheWritten (p : Phase) : (s.goto p).cacheWritten = s.cacheWritten := rfl
@[simp] theorem goto_frame (p : Phase) : (s.goto p).frame = s.frame := rfl
@[simp] theorem goto_acc (p : Phase) : (s.goto p).acc = s.acc := rfl
@[simp] theorem goto_byteIdx (p : Phase) : (s.goto p).byteIdx = s.byteIdx := rfl
@[simp] theorem goto_bitIdx (p : Phase) : (s.goto p).bitIdx = s.bitIdx := rfl
@[simp] theorem goto_c (p : Phase) : (s.goto p).c = s.c := rfl
@[simp] theorem goto_d (p : Phase) : (s.goto p).d = s.d := rfl
@[simp] theorem goto_phase (p : Phase) : (s.goto p).phase = p := rfl
@[simp] theorem goto_result (p : Phase) : (s.goto p).result = s.result := rfl
@[simp] theorem goto_abort (p : Phase) : (s.goto p).abort = s.abort := rfl
@[simp] theorem goto_fault (p : Phase) : (s.goto p).fault = s.fault := rfl
@[simp] theorem goto_events (p : Phase) : (s.goto p).events = s.events := rfl
@[simp] theorem goto_params (p : Phase) : (s.goto p).params = s.params := rfl
@[simp] theorem goto_line (p : Phase) : (s.goto p).line = s.line := rfl
@[simp] theorem goto_draws (p : Phase) : (s.goto p).draws = s.draws := rfl
@[simp] theorem goto_tickDue (p : Phase) : (s.goto p).tickDue = s.tickDue := rfl
@[simp] theorem goto_calls (p : Phase) : (s.goto p).calls = s.calls := rfl
@[simp] theorem goto_readPin (p : Phase) : (s.goto p).readPin = s.readPin := rfl
@[simp] theorem goto_host (p : Phase) : (s.goto p).host = s.host := rfl
@[simp] theorem goto_responses (p : Phase) : (s.goto p).responses = s.responses := rfl

/-! ### `enterSampler` -/

@[simp] theorem enterSampler_handleExists (p : Phase) : (s.enterSampler p).handleExists = s.handleExists := rfl
@[simp] theorem enterSampler_pin (p : Phase) : (s.enterSampler p).pin = s.pin := rfl
@[simp] theorem enterSampler_dir (p : Phase) : (s.enterSampler p).dir = s.dir := rfl
@[simp] theorem enterSampler_outLevel (p : Phase) : (s.enterSampler p).outLevel = s.outLevel := rfl
@[simp] theorem enterSampler_cacheT (p : Phase) : (s.enterSampler p).cacheT = s.cacheT := rfl
@[simp] theorem enterSampler_cacheH (p : Phase) : (s.enterSampler p).cacheH = s.cacheH := rfl
@[simp] theorem enterSampler_cacheWritten (p : Phase) : (s.enterSampler p).cacheWritten = s.cacheWritten := rfl
@[simp] theorem enterSampler_frame (p : Phase) : (s.enterSampler p).frame = s.frame := rfl
@[simp] theorem enterSampler_acc (p : Phase) : (s.enterSampler p).acc = s.acc := rfl
@[simp] theorem enterSampler_byteIdx (p : Phase) : (s.enterSampler p).byteIdx = s.byteIdx := rfl
@[simp] theorem enterSampler_bitIdx (p : Phase) : (s.enterSampler p).bitIdx = s.bitIdx := rfl
@[simp] theorem enterSampler_c (p : Phase) : (s.enterSampler p).c = some 0 := rfl
@[simp] theorem enterSampler_d (p : Phase) : (s.enterSampler p).d = s.d := rfl
@[simp] theorem enterSampler_phase (p : Phase) : (s.enterSampler p).phase = p := rfl
@[simp] theorem enterSampler_result (p : Phase) : (s.enterSampler p).result = s.result := rfl
@[simp] theorem enterSampler_abort (p : Phase) : (s.enterSampler p).abort = s.abort := rfl
@[simp] theorem enterSampler_fault (p : Phase) : (s.enterSampler p).fault = s.fault := rfl
@[simp] theorem enterSampler_events (p : Phase) : (s.enterSampler p).events = s.events := rfl
@[simp] theorem enterSampler_params (p : Phase) : (s.enterSampler p).params = s.params := rfl
@[simp] theorem enterSampler_line (p : Phase) : (s.enterSampler p).line = s.line := rfl
@[simp] theorem enterSampler_draws (p : Phase) : (s.enterSampler p).draws = s.draws := rfl
@[simp] theorem enterSampler_tickDue (p : Phase) : (s.enterSampler p).tickDue = s.tickDue := rfl
@[simp] theorem enterSampler_calls (p : Phase) : (s.enterSampler p).calls = s.calls := rfl
@[simp] theorem enterSampler_readPin (p : Phase) : (s.enterSampler p).readPin = s.readPin := rfl
@[simp] theorem enterSampler_host (p : Phase) : (s.enterSampler p).host = s.host := rfl
@[simp] theorem enterSampler_responses (p : Phase) : (s.enterSampler p).responses = s.responses := rfl

/-! ### `enterMeasure` -/

@[simp] theorem enterMeasure_handleExists : (s.enterMeasure).handleExists = s.handleExists := rfl
@[simp] theorem enterMeasure_pin : (s.enterMeasure).pin = s.pin := rfl
@[simp] theorem enterMeasure_dir : (s.enterMeasure).dir = s.dir := rfl
@[simp] theorem enterMeasure_outLevel : (s.enterMeasure).outLevel = s.outLevel := rfl
@[simp] theorem enterMeasure_cacheT : (s.enterMeasure).cacheT = s.cacheT := rfl
@[simp] theorem enterMeasure_cacheH : (s.enterMeasure).cacheH = s.cacheH := rfl
@[simp] theorem enterMeasure_cacheWritten : (s.enterMeasure).cacheWritten = s.cacheWritten := rfl
@[simp] theorem enterMeasure_frame : (s.enterMeasure).frame = s.frame := rfl
@[simp] theorem enterMeasure_acc : (s.enterMeasure).acc = s.acc := rfl
@[simp] theorem enterMeasure_byteIdx : (s.enterMeasure).byteIdx = s.byteIdx := rfl
@[simp] theorem enterMeasure_bitIdx : (s.enterMeasure).bitIdx = s.bitIdx := rfl
@[simp] theorem enterMeasure_c : (s.enterMeasure).c = s.c := rfl
@[simp] theorem enterMeasure_d : (s.enterMeasure).d = some 0 := rfl
@[simp] theorem enterMeasure_phase : (s.enterMeasure).phase = .bMeasure := rfl
@[simp] theorem enterMeasure_result : (s.enterMeasure).result = s.result := rfl
@[simp] theorem enterMeasure_abort : (s.enterMeasure).abort = s.abort := rfl
@[simp] theorem enterMeasure_fault : (s.enterMeasure).fault = s.fault := rfl
@[simp] theorem enterMeasure_events : (s.enterMeasure).events = s.events := rfl
@[simp] theorem enterMeasure_params : (s.enterMeasure).params = s.params := rfl
@[simp] theorem enterMeasure_line : (s.enterMeasure).line = s.line := rfl
@[simp] theorem enterMeasure_draws : (s.enterMeasure).draws = s.draws := rfl
@[simp] theorem enterMeasure_tickDue : (s.enterMeasure).tickDue = s.tickDue := rfl
@[simp] theorem enterMeasure_calls : (s.enterMeasure).calls = s.calls := rfl
@[simp] theorem enterMeasure_readPin : (s.enterMeasure).readPin = s.readPin := rfl
@[simp] theorem enterMeasure_host : (s.enterMeasure).host = s.host := rfl
@[simp] theorem enterMeasure_responses : (s.enterMeasure).responses = s.responses := rfl

/-! ### `clearTransient` -/

@[simp] theorem clearTransient_handleExists : (s.clearTransient).handleExists = s.handleExists := rfl
@[simp] theorem clearTransient_pin : (s.clearTransient).pin = s.pin := rfl
@[simp] theorem clearTransient_dir : (s.clearTransient).dir = s.dir := rfl
@[simp] theorem clearTransient_outLevel : (s.clearTransient).outLevel = s.outLevel := rfl
@[simp] theorem clearTransient_cacheT : (s.clearTransient).cacheT = s.cacheT := rfl
@[simp] theorem clearTransient_cacheH : (s.clearTransient).cacheH = s.cacheH := rfl
@[simp] theorem clearTransient_cacheWritten : (s.clearTransient).cacheWritten = s.cacheWritten := rfl
@[simp] theorem clearTransient_frame : (s.clearTransient).frame = emptyFrame := rfl
@[simp] theorem clearTransient_acc : (s.clearTransient).acc = none := rfl
@[simp] theorem clearTransient_byteIdx : (s.clearTransient).byteIdx = none := rfl
@[simp] theorem clearTransient_bitIdx : (s.clearTransient).bitIdx = none := rfl
@[simp] theorem clearTransient_c : (s.clearTransient).c = none := rfl
@[simp] theorem clearTransient_d : (s.clearTransient).d = none := rfl
@[simp] theorem clearTransient_phase : (s.clearTransient).phase = s.phase := rfl
@[simp] theorem clearTransient_result : (s.clearTransient).result = s.result := rfl
@[simp] theorem clearTransient_abort : (s.clearTransient).abort = s.abort := rfl
@[simp] theorem clearTransient_fault : (s.clearTransient).fault = s.fault := rfl
@[simp] theorem clearTransient_events : (s.clearTransient).events = s.events := rfl
@[simp] theorem clearTransient_params : (s.clearTransient).params = s.params := rfl
@[simp] theorem clearTransient_line : (s.clearTransient).line = s.line := rfl
@[simp] theorem clearTransient_draws : (s.clearTransient).draws = s.draws := rfl
@[simp] theorem clearTransient_tickDue : (s.clearTransient).tickDue = s.tickDue := rfl
@[simp] theorem clearTransient_calls : (s.clearTransient).calls = s.calls := rfl
@[simp] theorem clearTransient_readPin : (s.clearTransient).readPin = s.readPin := rfl
@[simp] theorem clearTransient_host : (s.clearTransient).host = s.host := rfl
@[simp] theorem clearTransient_responses : (s.clearTransient).responses = s.responses := rfl

/-! ### `respond` -/

@[simp] theorem respond_handleExists (r : Response) : (s.respond r).handleExists = s.handleExists := rfl
@[simp] theorem respond_pin (r : Response) : (s.respond r).pin = s.pin := rfl
@[simp] theorem respond_dir (r : Response) : (s.respond r).dir = s.dir := rfl
@[simp] theorem respond_outLevel (r : Response) : (s.respond r).outLevel = s.outLevel := rfl
@[simp] theorem respond_cacheT (r : Response) : (s.respond r).cacheT = s.cacheT := rfl
@[simp] theorem respond_cacheH (r : Response) : (s.respond r).cacheH = s.cacheH := rfl
@[simp] theorem respond_cacheWritten (r : Response) : (s.respond r).cacheWritten = s.cacheWritten := rfl
@[simp] theorem respond_frame (r : Response) : (s.respond r).frame = s.frame := rfl
@[simp] theorem respond_acc (r : Response) : (s.respond r).acc = s.acc := rfl
@[simp] theorem respond_byteIdx (r : Response) : (s.respond r).byteIdx = s.byteIdx := rfl
@[simp] theorem respond_bitIdx (r : Response) : (s.respond r).bitIdx = s.bitIdx := rfl
@[simp] theorem respond_c (r : Response) : (s.respond r).c = s.c := rfl
@[simp] theorem respond_d (r : Response) : (s.respond r).d = s.d := rfl
@[simp] theorem respond_phase (r : Response) : (s.respond r).phase = s.phase := rfl
@[simp] theorem respond_result (r : Response) : (s.respond r).result = s.result := rfl
@[simp] theorem respond_abort (r : Response) : (s.respond r).abort = s.abort := rfl
@[simp] theorem respond_fault (r : Response) : (s.respond r).fault = s.fault := rfl
@[simp] theorem respond_events (r : Response) : (s.respond r).events = s.events := rfl
@[simp] theorem respond_params (r : Response) : (s.respond r).params = s.params := rfl
@[simp] theorem respond_line (r : Response) : (s.respond r).line = s.line := rfl
@[simp] theorem respond_draws (r : Response) : (s.respond r).draws = s.draws := rfl
@[simp] theorem respond_tickDue (r : Response) : (s.respond r).tickDue = s.tickDue := rfl
@[simp] theorem respond_calls (r : Response) : (s.respond r).calls = s.calls := rfl
@[simp] theorem respond_readPin (r : Response) : (s.respond r).readPin = s.readPin := rfl
@[simp] theorem respond_host (r : Response) : (s.respond r).host = s.host := rfl
@[simp] theorem respond_responses (r : Response) : (s.respond r).responses = s.responses ++ [r] := rfl

/-! ### `finish` -/

@[simp] theorem finish_handleExists (r : Bool) : (s.finish r).handleExists = s.handleExists := rfl
@[simp] theorem finish_pin (r : Bool) : (s.finish r).pin = s.pin := rfl
@[simp] theorem finish_dir (r : Bool) : (s.finish r).dir = s.dir := rfl
@[simp] theorem finish_outLevel (r : Bool) : (s.finish r).outLevel = s.outLevel := rfl
@[simp] theorem finish_cacheT (r : Bool) : (s.finish r).cacheT = s.cacheT := rfl
@[simp] theorem finish_cacheH (r : Bool) : (s.finish r).cacheH = s.cacheH := rfl
@[simp] theorem finish_cacheWritten (r : Bool) : (s.finish r).cacheWritten = s.cacheWritten := rfl
@[simp] theorem finish_frame (r : Bool) : (s.finish r).frame = emptyFrame := rfl
@[simp] theorem finish_acc (r : Bool) : (s.finish r).acc = none := rfl
@[simp] theorem finish_byteIdx (r : Bool) : (s.finish r).byteIdx = none := rfl
@[simp] theorem finish_bitIdx (r : Bool) : (s.finish r).bitIdx = none := rfl
@[simp] theorem finish_c (r : Bool) : (s.finish r).c = none := rfl
@[simp] theorem finish_d (r : Bool) : (s.finish r).d = none := rfl
@[simp] theorem finish_phase (r : Bool) : (s.finish r).phase = .idle := rfl
@[simp] theorem finish_result (r : Bool) : (s.finish r).result = some r := rfl
@[simp] theorem finish_abort (r : Bool) : (s.finish r).abort = s.abort := rfl
@[simp] theorem finish_fault (r : Bool) : (s.finish r).fault = s.fault := rfl
@[simp] theorem finish_events (r : Bool) : (s.finish r).events = s.events := rfl
@[simp] theorem finish_params (r : Bool) : (s.finish r).params = s.params := rfl
@[simp] theorem finish_line (r : Bool) : (s.finish r).line = s.line := rfl
@[simp] theorem finish_draws (r : Bool) : (s.finish r).draws = s.draws := rfl
@[simp] theorem finish_tickDue (r : Bool) : (s.finish r).tickDue = s.tickDue := rfl
@[simp] theorem finish_calls (r : Bool) : (s.finish r).calls = s.calls := rfl
@[simp] theorem finish_readPin (r : Bool) : (s.finish r).readPin = s.readPin := rfl
@[simp] theorem finish_host (r : Bool) : (s.finish r).host = s.host := rfl
@[simp] theorem finish_responses (r : Bool) : (s.finish r).responses = s.responses ++ [.updateResult r] := rfl

/-! ### `fail` -/

@[simp] theorem fail_handleExists (a : Abort) : (s.fail a).handleExists = s.handleExists := rfl
@[simp] theorem fail_pin (a : Abort) : (s.fail a).pin = s.pin := rfl
@[simp] theorem fail_dir (a : Abort) : (s.fail a).dir = s.dir := rfl
@[simp] theorem fail_outLevel (a : Abort) : (s.fail a).outLevel = s.outLevel := rfl
@[simp] theorem fail_cacheT (a : Abort) : (s.fail a).cacheT = s.cacheT := rfl
@[simp] theorem fail_cacheH (a : Abort) : (s.fail a).cacheH = s.cacheH := rfl
@[simp] theorem fail_cacheWritten (a : Abort) : (s.fail a).cacheWritten = s.cacheWritten := rfl
@[simp] theorem fail_frame (a : Abort) : (s.fail a).frame = emptyFrame := rfl
@[simp] theorem fail_acc (a : Abort) : (s.fail a).acc = none := rfl
@[simp] theorem fail_byteIdx (a : Abort) : (s.fail a).byteIdx = none := rfl
@[simp] theorem fail_bitIdx (a : Abort) : (s.fail a).bitIdx = none := rfl
@[simp] theorem fail_c (a : Abort) : (s.fail a).c = none := rfl
@[simp] theorem fail_d (a : Abort) : (s.fail a).d = none := rfl
@[simp] theorem fail_phase (a : Abort) : (s.fail a).phase = .idle := rfl
@[simp] theorem fail_result (a : Abort) : (s.fail a).result = some false := rfl
@[simp] theorem fail_abort (a : Abort) : (s.fail a).abort = some a := rfl
@[simp] theorem fail_fault (a : Abort) : (s.fail a).fault = s.fault := rfl
@[simp] theorem fail_events (a : Abort) : (s.fail a).events = s.events := rfl
@[simp] theorem fail_params (a : Abort) : (s.fail a).params = s.params := rfl
@[simp] theorem fail_line (a : Abort) : (s.fail a).line = s.line := rfl
@[simp] theorem fail_draws (a : Abort) : (s.fail a).draws = s.draws := rfl
@[simp] theorem fail_tickDue (a : Abort) : (s.fail a).tickDue = s.tickDue := rfl
@[simp] theorem fail_calls (a : Abort) : (s.fail a).calls = s.calls := rfl
@[simp] theorem fail_readPin (a : Abort) : (s.fail a).readPin = s.readPin := rfl
@[simp] theorem fail_host (a : Abort) : (s.fail a).host = s.host := rfl
@[simp] theorem fail_responses (a : Abort) : (s.fail a).responses = s.responses ++ [.updateResult false] := rfl

/-! ### `raise` -/

@[simp] theorem raise_handleExists (f : ModelFault) : (s.raise f).handleExists = s.handleExists := rfl
@[simp] theorem raise_pin (f : ModelFault) : (s.raise f).pin = s.pin := rfl
@[simp] theorem raise_dir (f : ModelFault) : (s.raise f).dir = s.dir := rfl
@[simp] theorem raise_outLevel (f : ModelFault) : (s.raise f).outLevel = s.outLevel := rfl
@[simp] theorem raise_cacheT (f : ModelFault) : (s.raise f).cacheT = s.cacheT := rfl
@[simp] theorem raise_cacheH (f : ModelFault) : (s.raise f).cacheH = s.cacheH := rfl
@[simp] theorem raise_cacheWritten (f : ModelFault) : (s.raise f).cacheWritten = s.cacheWritten := rfl
@[simp] theorem raise_frame (f : ModelFault) : (s.raise f).frame = s.frame := rfl
@[simp] theorem raise_acc (f : ModelFault) : (s.raise f).acc = s.acc := rfl
@[simp] theorem raise_byteIdx (f : ModelFault) : (s.raise f).byteIdx = s.byteIdx := rfl
@[simp] theorem raise_bitIdx (f : ModelFault) : (s.raise f).bitIdx = s.bitIdx := rfl
@[simp] theorem raise_c (f : ModelFault) : (s.raise f).c = s.c := rfl
@[simp] theorem raise_d (f : ModelFault) : (s.raise f).d = s.d := rfl
@[simp] theorem raise_phase (f : ModelFault) : (s.raise f).phase = s.phase := rfl
@[simp] theorem raise_result (f : ModelFault) : (s.raise f).result = s.result := rfl
@[simp] theorem raise_abort (f : ModelFault) : (s.raise f).abort = s.abort := rfl
@[simp] theorem raise_fault (f : ModelFault) : (s.raise f).fault = if f ∈ s.fault then s.fault else s.fault ++ [f] := rfl
@[simp] theorem raise_events (f : ModelFault) : (s.raise f).events = s.events := rfl
@[simp] theorem raise_params (f : ModelFault) : (s.raise f).params = s.params := rfl
@[simp] theorem raise_line (f : ModelFault) : (s.raise f).line = s.line := rfl
@[simp] theorem raise_draws (f : ModelFault) : (s.raise f).draws = s.draws := rfl
@[simp] theorem raise_tickDue (f : ModelFault) : (s.raise f).tickDue = s.tickDue := rfl
@[simp] theorem raise_calls (f : ModelFault) : (s.raise f).calls = s.calls := rfl
@[simp] theorem raise_readPin (f : ModelFault) : (s.raise f).readPin = s.readPin := rfl
@[simp] theorem raise_host (f : ModelFault) : (s.raise f).host = s.host := rfl
@[simp] theorem raise_responses (f : ModelFault) : (s.raise f).responses = s.responses := rfl

end Sys2Proof.Machine.State
end

