-- ==== Sys2Proof/Laws/Ops.lean ====
section
/-! SUPPORT. One lemma per shared operation: reading an element, the checks of dispatch, the sampler
row, the measuring row. -/

namespace Sys2Proof.Machine

/-! ### Reading an element -/

theorem readC_of_some {s : State} {n : Nat} (h : s.c = some n) : s.readC = n := by
  simp [State.readC, h]

theorem readD_of_some {s : State} {n : Nat} (h : s.d = some n) : s.readD = n := by
  simp [State.readD, h]

theorem readAcc_of_some {s : State} {v : Byte} (h : s.acc = some v) : s.readAcc = v := by
  simp [State.readAcc, h]

theorem readByteIdx_of_some {s : State} {k : Fin 5} (h : s.byteIdx = some k) : s.readByteIdx = k := by
  simp [State.readByteIdx, h]

theorem readBitIdx_of_some {s : State} {i : Fin 8} (h : s.bitIdx = some i) : s.readBitIdx = i := by
  simp [State.readBitIdx, h]

theorem readFrame_of_some {s : State} {k : Fin 5} {v : Byte} (h : s.frame[k] = some v) :
    s.readFrame k = v := by
  unfold State.readFrame
  rw [h]
  rfl

theorem readCacheT_of_some {s : State} {v : Word16} (h : s.cacheT = some v) : s.readCacheT = v := by
  simp [State.readCacheT, h]

theorem readCacheH_of_some {s : State} {v : Word16} (h : s.cacheH = some v) : s.readCacheH = v := by
  simp [State.readCacheH, h]

theorem readPin_of_some {s : State} {p : Byte} (h : s.pin = some p) : s.readPin = p := by
  simp [State.readPin, h]

theorem busy_eq_false {s : State} : s.busy = false ↔ s.phase = .idle := by
  simp [State.busy]

theorem busy_eq_true {s : State} : s.busy = true ↔ s.phase ≠ .idle := by
  simp [State.busy]

/-! ### The environment's answers -/

theorem nextLevel_eq_answer (s : State) : s.nextLevel = s.answer 0 := by
  unfold State.nextLevel State.answer
  cases s.line <;> rfl

/-- After a `LineRead` the answers to come are the same ones, numbered one lower. -/
theorem answer_afterRead (s : State) (n : Nat) : s.afterRead.answer n = s.answer (n + 1) := by
  unfold State.answer
  cases h : s.line with
  | nil => simp [h, Nat.add_comm, Nat.add_left_comm]
  | cons l ls => simp [h, Nat.add_comm, Nat.add_left_comm]

/-! ### Capability calls -/

theorem callAt_event (p : Byte) (e : Event) : (e.callAt p).event = e := by
  cases e <;> rfl

/-- A capability call is the one-element case of the calls of a run. -/
theorem record_eq_performed (e : Event) (s : State) : s.record e = s.performed [e] := rfl

/-- Calls made in two parts are the calls of both, since no call writes PIN. -/
theorem performed_performed (es fs : List Event) (s : State) :
    (s.performed es).performed fs = s.performed (es ++ fs) := by
  simp [State.performed, State.readPin]

theorem record_callsInv {s : State} (e : Event) (h : s.callsInv) : (s.record e).callsInv := by
  simp only [State.callsInv, State.record_events, State.record_calls, List.map_append, List.map_cons,
    List.map_nil, callAt_event]
  rw [show s.events = s.calls.map Call.event from h]

/-! ### Raising a fault -/

theorem raise_into_empty {s : State} (f : ModelFault) (h : s.fault = []) :
    s.raise f = { s with fault := [f] } := by
  simp [State.raise, h]

theorem raise_ne_nil (s : State) (f : ModelFault) : (s.raise f).fault ≠ [] := by
  simp only [State.raise_fault]
  split
  · intro h
    simp_all
  · simp

/-! ### Checks -/

theorem runnable_iff {s : State} : s.runnable = true ↔ s.params.wf = true ∧ s.fault = [] := by
  simp [State.runnable]

theorem ready_iff {s : State} :
    s.ready = true ↔ (s.params.wf = true ∧ s.fault = []) ∧ s.phase = .idle := by
  simp [State.ready, State.runnable, State.busy]

/-- What the core's configuration and FAULT decide, an update of other fields keeps. -/
theorem runnable_congr {s t : State} (hp : t.params = s.params) (hf : t.fault = s.fault) :
    t.runnable = s.runnable := by
  simp only [State.runnable, hp, hf]

theorem disciplined_congr {s t : State} (h : t.host = s.host) : t.disciplined = s.disciplined := by
  simp only [State.disciplined, h]

@[simp] theorem afterRead_runnable (s : State) : s.afterRead.runnable = s.runnable := runnable_congr rfl rfl
@[simp] theorem countPoll_runnable (s : State) : s.countPoll.runnable = s.runnable := runnable_congr rfl rfl
@[simp] theorem countHigh_runnable (s : State) : s.countHigh.runnable = s.runnable := runnable_congr rfl rfl
@[simp] theorem tick_runnable (us : Nat) (s : State) : (s.tick us).runnable = s.runnable :=
  runnable_congr rfl rfl
@[simp] theorem afterRead_disciplined (s : State) : s.afterRead.disciplined = s.disciplined :=
  disciplined_congr rfl
@[simp] theorem countPoll_disciplined (s : State) : s.countPoll.disciplined = s.disciplined :=
  disciplined_congr rfl
@[simp] theorem countHigh_disciplined (s : State) : s.countHigh.disciplined = s.disciplined :=
  disciplined_congr rfl
@[simp] theorem tick_disciplined (us : Nat) (s : State) : (s.tick us).disciplined = s.disciplined :=
  disciplined_congr rfl

theorem whenRunning_of_runnable {s : State} {k : Outcome} (h : s.runnable = true) :
    whenRunning s k = k := by
  obtain ⟨hp, hf⟩ := runnable_iff.mp h
  simp [whenRunning, hp, hf]

/-- A next state answered behind the checks means the core could step. -/
theorem whenRunning_next {s s' : State} {k : Outcome} (h : whenRunning s k = .next s') :
    s.runnable = true ∧ k = .next s' := by
  unfold whenRunning at h
  split at h
  · cases h
  · split at h
    · cases h
    · simp_all [State.runnable]

theorem whenRunning_of_fault {s : State} {k : Outcome} (hp : s.params.wf = true) (hf : s.fault ≠ []) :
    whenRunning s k = .fault .quiescent := by
  simp [whenRunning, hp, hf]

theorem whenRunning_of_short {s : State} {k : Outcome} (hp : s.params.wf = false) :
    whenRunning s k = .refused .timeoutBelowTen := by
  simp [whenRunning, hp]

theorem whenFree_of_ready {w : Word16} {s : State} {k : Outcome} (h : s.ready = true) :
    whenFree w s k = k := by
  obtain ⟨⟨hp, hf⟩, hi⟩ := ready_iff.mp h
  simp [whenFree, whenRunning, State.busy, hp, hf, hi]

/-- A next state answered behind the checks of R100 is the raise of Overlap, or the checked
continuation's. -/
theorem whenFree_next {w : Word16} {s s' : State} {k : Outcome} (h : whenFree w s k = .next s') :
    s.runnable = true ∧
      ((s.phase ≠ .idle ∧ s' = s.raise (.overlap w)) ∨ (s.phase = .idle ∧ k = .next s')) := by
  obtain ⟨hr, hk⟩ := whenRunning_next h
  refine ⟨hr, ?_⟩
  split at hk
  · next hb => exact .inl ⟨busy_eq_true.mp hb, by cases hk; rfl⟩
  · next hb => exact .inr ⟨busy_eq_false.mp (by simpa using hb), hk⟩

theorem withHandle_of_handle {w : Word16} {s : State} {k : Outcome} (h : s.handleExists = true) :
    withHandle w s k = k := by
  simp [withHandle, h]

theorem withHandle_next {w : Word16} {s s' : State} {k : Outcome} (h : withHandle w s k = .next s') :
    (s.handleExists = false ∧ s' = s.raise (.noHandle w)) ∨ (s.handleExists = true ∧ k = .next s') := by
  unfold withHandle at h
  split at h
  · next hh => exact .inr ⟨hh, h⟩
  · next hh => exact .inl ⟨by simpa using hh, by cases h; rfl⟩

theorem readCache_next {a : Accessor} {v : Word16} {s s' : State} (h : readCache a v s = .next s') :
    (s.cacheWritten = true ∧ s' = s.respond (.word v)) ∨
      (s.cacheWritten = false ∧ s' = s.raise (.uninitCacheRead a)) := by
  unfold readCache at h
  split at h
  · next hc => exact .inl ⟨hc, by cases h; rfl⟩
  · next hc => exact .inr ⟨by simpa using hc, by cases h; rfl⟩

/-! ### The sampler's row -/

theorem samplerStep_tick {t : Level} {r : Abort} {f : State → State} {s : State} (ht : s.tickDue = true) :
    samplerStep t r f s = s.tick s.params.samplerTickUs := by
  simp [samplerStep, ht]

theorem samplerStep_match {t : Level} {r : Abort} {f : State → State} {s : State} (ht : s.tickDue = false)
    (hc : s.readC < s.params.timeout) (hl : s.nextLevel = t) : samplerStep t r f s = f s.afterRead := by
  simp [samplerStep, ht, hc, hl]

theorem samplerStep_mismatch {t : Level} {r : Abort} {f : State → State} {s : State} (ht : s.tickDue = false)
    (hc : s.readC < s.params.timeout) (hl : s.nextLevel ≠ t) :
    samplerStep t r f s = s.countPoll := by
  simp [samplerStep, ht, hc, hl]

theorem samplerStep_timeout {t : Level} {r : Abort} {f : State → State} {s : State} (ht : s.tickDue = false)
    (hc : ¬ s.readC < s.params.timeout) : samplerStep t r f s = s.fail r := by
  simp [samplerStep, ht, hc]

/-- Everything a sampler step can do. -/
theorem samplerStep_cases (t : Level) (r : Abort) (f : State → State) (s : State) :
    (s.tickDue = true ∧ samplerStep t r f s = s.tick s.params.samplerTickUs) ∨
    (s.tickDue = false ∧ s.readC < s.params.timeout ∧ s.nextLevel = t ∧
      samplerStep t r f s = f s.afterRead) ∨
    (s.tickDue = false ∧ s.readC < s.params.timeout ∧ s.nextLevel ≠ t ∧ samplerStep t r f s = s.countPoll) ∨
    (s.tickDue = false ∧ s.params.timeout ≤ s.readC ∧ samplerStep t r f s = s.fail r) := by
  cases ht : s.tickDue with
  | true => exact .inl ⟨rfl, samplerStep_tick ht⟩
  | false =>
    by_cases hc : s.readC < s.params.timeout
    · by_cases hl : s.nextLevel = t
      · exact .inr (.inl ⟨rfl, hc, hl, samplerStep_match ht hc hl⟩)
      · exact .inr (.inr (.inl ⟨rfl, hc, hl, samplerStep_mismatch ht hc hl⟩))
    · exact .inr (.inr (.inr ⟨rfl, Nat.le_of_not_lt hc, samplerStep_timeout ht hc⟩))

/-! ### The measuring row -/

/-- Everything a measuring step can do. -/
theorem stepMeasure_cases (s : State) :
    (s.tickDue = true ∧ stepMeasure s = s.tick s.params.durationTickUs) ∨
    (s.tickDue = false ∧ s.readD < fineTimeout s.params ∧ s.nextLevel = .high ∧ stepMeasure s = s.countHigh) ∨
    (s.tickDue = false ∧ s.readD < fineTimeout s.params ∧ s.nextLevel = .low ∧
      stepMeasure s = s.afterRead.bitDone) ∨
    (s.tickDue = false ∧ fineTimeout s.params ≤ s.readD ∧
      stepMeasure s = s.fail (.bitTooLong s.readByteIdx s.readBitIdx)) := by
  cases ht : s.tickDue with
  | true => exact .inl ⟨rfl, by simp [stepMeasure, ht]⟩
  | false =>
    by_cases hd : s.readD < fineTimeout s.params
    · cases hl : s.nextLevel with
      | high => exact .inr (.inl ⟨rfl, hd, rfl, by simp [stepMeasure, ht, hd, hl]⟩)
      | low => exact .inr (.inr (.inl ⟨rfl, hd, rfl, by simp [stepMeasure, ht, hd, hl]⟩))
    · exact .inr (.inr (.inr ⟨rfl, Nat.le_of_not_lt hd, by simp [stepMeasure, ht, hd]⟩))

/-- Where the LOW read that ends a bit leads. -/
theorem bitDone_cases (s : State) :
    (s.readBitIdx < 7 ∧ s.bitDone = s.nextBit) ∨
    (s.readBitIdx = 7 ∧ s.readByteIdx < 4 ∧ s.bitDone = s.nextByte) ∨
    (s.readBitIdx = 7 ∧ s.readByteIdx = 4 ∧ s.bitDone = s.lastByte) := by
  unfold State.bitDone
  by_cases hb : s.readBitIdx < 7
  · exact .inl ⟨hb, by simp [hb]⟩
  · by_cases hk : s.readByteIdx < 4
    · exact .inr (.inl ⟨by omega, hk, by simp [hb, hk]⟩)
    · exact .inr (.inr ⟨by omega, by omega, by simp [hb, hk]⟩)

/-- The two endings of a commit. -/
theorem deliverResult_cases (s : State) :
    (s.frameOK = true ∧ s.deliverResult = State.finish true { s with abort := some .noAbort }) ∨
    (s.frameOK = false ∧ s.deliverResult = s.fail .checksumMismatch) := by
  unfold State.deliverResult
  cases h : s.frameOK with
  | true => exact .inl ⟨rfl, by simp⟩
  | false => exact .inr ⟨rfl, by simp⟩

end Sys2Proof.Machine
end

