-- ==== Sys2Proof/Laws/PerInstr.lean ====
section
/-! SUPPORT. Per command: the fields of its word are its opcode and its operand. -/

namespace Sys2Proof.Laws.WordFields

/-- The word of a command holds its opcode in 7:0 and its operand in 15:8 (30_encoding.md R70). -/
def Statement (i : Instr) : Prop :=
  opcodeField (encode i) = opcodeOf i ∧ operandField (encode i) = operandOf i

theorem construct (pin : Byte) : Statement (.construct pin) := by
  simp [Statement, encode]

theorem update : Statement .update := by
  simp [Statement, encode]

theorem lastT : Statement .lastT := by
  simp [Statement, encode]

theorem lastH : Statement .lastH := by
  simp [Statement, encode]

end Sys2Proof.Laws.WordFields
end

