-- ==== Sys2Proof/Laws/Step.lean ====
section
/-! SUPPORT. Everything a step can do, said once: the inversion lemmas that later proofs cite instead
of unfolding the step. -/

namespace Sys2Proof.Machine

/-- Everything a command can do when it answers a next state. -/
theorem exec_cases {i : Instr} {s s' : State} (h : exec i s = .next s') :
    s.runnable = true ∧
      ((s.phase ≠ .idle ∧ s' = s.raise (.overlap (encode i))) ∨
       (s.phase = .idle ∧ (∃ pin, i = .construct pin ∧ s' = s.construct pin)) ∨
       (s.phase = .idle ∧ s.handleExists = false ∧ (∀ pin, i ≠ .construct pin) ∧
         s' = s.raise (.noHandle (encode i))) ∨
       (s.phase = .idle ∧ s.handleExists = true ∧ i = .update ∧ s' = s.acceptUpdate) ∨
       (s.phase = .idle ∧ s.handleExists = true ∧ i = .lastT ∧ s.cacheWritten = true ∧
         s' = s.respond (.word s.readCacheT)) ∨
       (s.phase = .idle ∧ s.handleExists = true ∧ i = .lastH ∧ s.cacheWritten = true ∧
         s' = s.respond (.word s.readCacheH)) ∨
       (s.phase = .idle ∧ s.handleExists = true ∧ i = .lastT ∧ s.cacheWritten = false ∧
         s' = s.raise (.uninitCacheRead .lastT)) ∨
       (s.phase = .idle ∧ s.handleExists = true ∧ i = .lastH ∧ s.cacheWritten = false ∧
         s' = s.raise (.uninitCacheRead .lastH))) := by
  cases i with
  | construct pin =>
    obtain ⟨hr, ⟨hb, rfl⟩ | ⟨hi, hk⟩⟩ := whenFree_next h
    · exact ⟨hr, .inl ⟨hb, rfl⟩⟩
    · cases hk
      exact ⟨hr, .inr (.inl ⟨hi, pin, rfl, rfl⟩)⟩
  | update =>
    obtain ⟨hr, ⟨hb, rfl⟩ | ⟨hi, hk⟩⟩ := whenFree_next h
    · exact ⟨hr, .inl ⟨hb, rfl⟩⟩
    · obtain ⟨hh, rfl⟩ | ⟨hh, hk⟩ := withHandle_next hk
      · exact ⟨hr, .inr (.inr (.inl ⟨hi, hh, by simp, rfl⟩))⟩
      · cases hk
        exact ⟨hr, .inr (.inr (.inr (.inl ⟨hi, hh, rfl, rfl⟩)))⟩
  | lastT =>
    obtain ⟨hr, ⟨hb, rfl⟩ | ⟨hi, hk⟩⟩ := whenFree_next h
    · exact ⟨hr, .inl ⟨hb, rfl⟩⟩
    · obtain ⟨hh, rfl⟩ | ⟨hh, hk⟩ := withHandle_next hk
      · exact ⟨hr, .inr (.inr (.inl ⟨hi, hh, by simp, rfl⟩))⟩
      · obtain ⟨hc, rfl⟩ | ⟨hc, rfl⟩ := readCache_next hk
        · exact ⟨hr, by simp [hi, hh, hc]⟩
        · exact ⟨hr, by simp [hi, hh, hc]⟩
  | lastH =>
    obtain ⟨hr, ⟨hb, rfl⟩ | ⟨hi, hk⟩⟩ := whenFree_next h
    · exact ⟨hr, .inl ⟨hb, rfl⟩⟩
    · obtain ⟨hh, rfl⟩ | ⟨hh, hk⟩ := withHandle_next hk
      · exact ⟨hr, .inr (.inr (.inl ⟨hi, hh, by simp, rfl⟩))⟩
      · obtain ⟨hc, rfl⟩ | ⟨hc, rfl⟩ := readCache_next hk
        · exact ⟨hr, by simp [hi, hh, hc]⟩
        · exact ⟨hr, by simp [hi, hh, hc]⟩

/-- Everything acceptance can do when it answers a next state: a command's meaning, or the raise of
Overlap or IllegalCommand for a word that is none. -/
theorem accept_cases {w : Word16} {s s' : State} (h : accept w s = .next s') :
    (∃ i, decode w = .command i ∧ exec i s = .next s') ∨
    (decode w = .illegal w ∧ s.runnable = true ∧
      ((s.phase ≠ .idle ∧ s' = s.raise (.overlap w)) ∨
       (s.phase = .idle ∧ s' = s.raise (.illegalCommand w)))) := by
  unfold accept at h
  cases hd : decode w with
  | command i =>
    rw [hd] at h
    exact .inl ⟨i, rfl, h⟩
  | illegal v =>
    rw [hd] at h
    obtain rfl := decode_illegal_word hd
    obtain ⟨hr, ⟨hb, rfl⟩ | ⟨hi, hk⟩⟩ := whenFree_next h
    · exact .inr ⟨rfl, hr, .inl ⟨hb, rfl⟩⟩
    · cases hk
      exact .inr ⟨rfl, hr, .inr ⟨hi, rfl⟩⟩

/-- Everything a step can do when it answers a next state: accept the word the host presents, or take
the sequencer's row. -/
theorem step_cases {s s' : State} (h : step s = .next s') :
    s.runnable = true ∧
      ((∃ w rest, hostMove s = (some w, rest) ∧ accept w { s with host := rest } = .next s') ∨
       (∃ rest, hostMove s = (none, rest) ∧ s' = sequencerStep { s with host := rest })) := by
  obtain ⟨hr, h⟩ := whenRunning_next h
  refine ⟨hr, ?_⟩
  unfold advance at h
  split at h
  · next w rest hm => exact .inl ⟨w, rest, hm, h⟩
  · next rest hm =>
    cases h
    exact .inr ⟨rest, hm, rfl⟩

/-- A step at which the host presents nothing is the sequencer's row. -/
theorem step_of_no_word {s : State} {rest : List HostMove} (hr : s.runnable = true)
    (hm : hostMove s = (none, rest)) : step s = .next (sequencerStep { s with host := rest }) := by
  simp [step, whenRunning_of_runnable hr, advance, hm]

/-- A step at which the host presents a word is its acceptance. -/
theorem step_of_word {s : State} {w : Word16} {rest : List HostMove} (hr : s.runnable = true)
    (hm : hostMove s = (some w, rest)) : step s = accept w { s with host := rest } := by
  simp [step, whenRunning_of_runnable hr, advance, hm]

/-- A disciplined host does not move while a command is in flight (40_host_operations.md R108). -/
theorem hostMove_of_disciplined_busy {s : State} (hd : s.disciplined = true) (hb : s.phase ≠ .idle) :
    hostMove s = (none, s.host) := by
  unfold hostMove
  cases hh : s.host with
  | nil => rfl
  | cons m rest =>
    cases m with
    | issue w => simp [busy_eq_true.mpr hb]
    | present n w => simp [State.disciplined, hh] at hd

/-- While a command of a disciplined host is in flight, a step is the sequencer's row. -/
theorem step_in_flight {s : State} (hr : s.runnable = true) (hd : s.disciplined = true)
    (hb : s.phase ≠ .idle) : step s = .next (sequencerStep s) :=
  step_of_no_word hr (hostMove_of_disciplined_busy hd hb)

/-- Everything a sequencer step can do, by program point: a sampler row, a measuring row, the commit, or
one of the rows that always go on. -/
theorem sequencerStep_cases (s : State) :
    (s.phase = .idle ∧ sequencerStep s = s) ∨
    (s.phase = .uIdleWait ∧ sequencerStep s = samplerStep .high .idleTimeout (State.goto .uWakeMode) s) ∨
    (s.phase = .uWakeMode ∧ sequencerStep s = (s.setMode .output).goto .uWakeDrive) ∨
    (s.phase = .uWakeDrive ∧ sequencerStep s = (s.lineWrite .low).goto .uWakeHold) ∨
    (s.phase = .uWakeHold ∧ sequencerStep s = (s.delay wakeUs).goto .uRelMode) ∨
    (s.phase = .uRelMode ∧ sequencerStep s = (s.setMode .input).goto .uRelSettle) ∨
    (s.phase = .uRelSettle ∧ sequencerStep s = (s.delay settleUs).enterSampler .uAckLow) ∨
    (s.phase = .uAckLow ∧ sequencerStep s = samplerStep .low .ackLowTimeout (State.enterSampler .uAckHigh) s) ∨
    (s.phase = .uAckHigh ∧ sequencerStep s = samplerStep .high .ackHighTimeout State.startFrame s) ∨
    (s.phase = .bLow ∧ sequencerStep s =
      samplerStep .low (.bitLowTimeout s.readByteIdx s.readBitIdx) (State.enterSampler .bHigh) s) ∨
    (s.phase = .bHigh ∧ sequencerStep s =
      samplerStep .high (.bitHighTimeout s.readByteIdx s.readBitIdx) State.enterMeasure s) ∨
    (s.phase = .bMeasure ∧ sequencerStep s = stepMeasure s) ∨
    (s.phase = .uCommit ∧ sequencerStep s = s.writeCache.deliverResult) := by
  cases hp : s.phase <;>
    simp [sequencerStep, hp, stepIdleWait, stepWakeMode, stepWakeDrive, stepWakeHold, stepRelMode, stepRelSettle,
      stepAckLow, stepAckHigh, stepBitLow, stepBitHigh, stepCommit]

/-- The runs of the statements are the runs of the host's interface. -/
theorem run_eq_core_run (n : Nat) (s : State) : run n s = Host.Core.run Sys2Proof.core n s := by
  induction n generalizing s with
  | zero => rfl
  | succ k ih =>
    cases h : step s with
    | next s' =>
      have hc : Sys2Proof.core.step s = .next s' := h
      simp only [run, h, Host.Core.run, hc]
      exact ih s'
    | fault r =>
      have hc : Sys2Proof.core.step s = .fault r := h
      simp only [run, h, Host.Core.run, hc]
      rfl
    | refused r =>
      have hc : Sys2Proof.core.step s = .refused r := h
      simp only [run, h, Host.Core.run, hc]
      rfl

theorem run_zero (s : State) : run 0 s = .next s := rfl

theorem run_succ {n : Nat} {s s' : State} (h : step s = .next s') : run (n + 1) s = run n s' := by
  simp [run, h]

/-- Runs compose. -/
theorem run_add {m n : Nat} {s t : State} (h : run m s = .next t) : run (m + n) s = run n t := by
  induction m generalizing s with
  | zero =>
    cases h
    simp
  | succ k ih =>
    rw [Nat.add_right_comm]
    cases hs : step s with
    | next s' =>
      rw [run_succ hs] at h ⊢
      exact ih h
    | fault r => simp [run, hs] at h
    | refused r => simp [run, hs] at h

end Sys2Proof.Machine
end

