-- ==== Sys2Proof/Laws/Runs.lean ====
section
/-! SUPPORT. The two polling loops of the rules' pseudocode and the machine's steps that run them:
one lemma per loop. -/

namespace Sys2Proof.Machine

theorem run_one {s t : State} (h : step s = .next t) : run 1 s = .next t := run_succ h

/-- A mismatching poll and its tick, as the two steps make them. -/
abbrev State.pollTick (s : State) : State := s.countPoll.tick s.params.samplerTickUs

/-- A HIGH poll and its tick, as the two steps make them. -/
abbrev State.highTick (s : State) : State := s.countHigh.tick s.params.durationTickUs

/-- One round of the sampler's loop. -/
theorem waitLoop_match {target : Level} {n : Nat} {s : State} (h : s.nextLevel = target) :
    waitLoop target (n + 1) s = (true, s.afterRead) := by
  simp [waitLoop, h]

theorem waitLoop_mismatch {target : Level} {n : Nat} {s : State} (ht : s.tickDue = false)
    (h : s.nextLevel ≠ target) : waitLoop target (n + 1) s = waitLoop target n s.pollTick := by
  have e : State.delay s.params.samplerTickUs { s.afterRead with c := some (s.readC + 1) } = s.pollTick := by
    cases s
    cases ht
    rfl
  simp only [waitLoop, h, if_false, e]

/-- One round of the discriminator's loop. -/
theorem measureLoop_low {n : Nat} {s : State} (h : s.nextLevel = .low) :
    measureLoop (n + 1) s = (some s.readD, s.afterRead) := by
  simp [measureLoop, h]

theorem measureLoop_high {n : Nat} {s : State} (ht : s.tickDue = false) (h : s.nextLevel = .high) :
    measureLoop (n + 1) s = measureLoop n s.highTick := by
  have e : State.delay s.params.durationTickUs { s.afterRead with d := some (s.readD + 1) } = s.highTick := by
    cases s
    cases ht
    rfl
  simp only [measureLoop, h, e]

/-- A disciplined host's core, at a program point whose row is a sampler's, runs the loop of
`WaitForPin` from the polls already counted, and leaves by the phase's exit or its failure. -/
theorem run_waitLoop {p : Phase} {target : Level} {reason : State → Abort} {exit : State → State}
    (hp : p ≠ .idle)
    (hrow : ∀ s, s.phase = p → sequencerStep s = samplerStep target (reason s) exit s)
    (n : Nat) (s : State) (hr : s.runnable = true) (hd : s.disciplined = true) (hs : s.phase = p)
    (ht : s.tickDue = false) (hc : s.readC + n = s.params.timeout) :
    ∃ m, m ≤ 2 * n + 1 ∧ run m s = .next
      (if (waitLoop target n s).1 = true then exit (waitLoop target n s).2
       else (waitLoop target n s).2.fail (reason (waitLoop target n s).2)) := by
  have hb : s.phase ≠ .idle := by rw [hs]; exact hp
  induction n generalizing s with
  | zero =>
    refine ⟨1, by omega, run_one ?_⟩
    rw [step_in_flight hr hd hb, hrow s hs, samplerStep_timeout ht (by omega)]
    rfl
  | succ n ih =>
    by_cases hl : s.nextLevel = target
    · refine ⟨1, by omega, run_one ?_⟩
      rw [step_in_flight hr hd hb, hrow s hs, samplerStep_match ht (by omega) hl, waitLoop_match hl]
      rfl
    · have hc' : s.pollTick.readC + n = s.pollTick.params.timeout := by
        rw [readC_of_some (s := s.pollTick) (n := s.readC + 1) (by simp)]
        simp only [State.tick_params, State.countPoll_params]
        omega
      obtain ⟨m, hm, hrun⟩ := ih s.pollTick (by simpa using hr) (by simpa using hd) (by simpa using hs)
        (by simp) hc' (by simpa using hb)
      refine ⟨m + 1 + 1, by omega, ?_⟩
      have hread : step s = .next s.countPoll := by
        rw [step_in_flight hr hd hb, hrow s hs, samplerStep_mismatch ht (by omega) hl]
      have htick : step s.countPoll = .next s.pollTick := by
        rw [step_in_flight (s := s.countPoll) (by simpa using hr) (by simpa using hd) (by simpa using hb),
          hrow s.countPoll (by simpa using hs), samplerStep_tick (by simp), State.countPoll_params]
      rw [waitLoop_mismatch ht hl, run_succ hread, run_succ htick, hrun]

/-- A disciplined host's core at `B_MEASURE` runs the loop of `MeasureHigh` from the HIGH polls already
counted, and leaves by the end of the bit or by failing. -/
theorem run_measureLoop (n : Nat) (s : State) (hr : s.runnable = true) (hd : s.disciplined = true)
    (hs : s.phase = .bMeasure) (ht : s.tickDue = false) (k : Nat) (hk : s.d = some k)
    (hc : k + n = fineTimeout s.params) :
    ∃ m, m ≤ 2 * n + 1 ∧
      run m s = .next
        (match measureLoop n s with
         | (some _, t) => t.bitDone
         | (none, t) => t.fail (.bitTooLong t.readByteIdx t.readBitIdx)) ∧
      (∀ q, (measureLoop n s).1 = some q → (measureLoop n s).2.d = some q) := by
  have hb : s.phase ≠ .idle := by simp [hs]
  have hrow : sequencerStep s = stepMeasure s := by simp [sequencerStep, hs]
  have hkd := readD_of_some hk
  induction n generalizing s k with
  | zero =>
    refine ⟨1, by omega, run_one ?_, by simp [measureLoop]⟩
    rw [step_in_flight hr hd hb, hrow]
    rcases stepMeasure_cases s with ⟨a, _⟩ | ⟨_, a, _⟩ | ⟨_, a, _⟩ | ⟨_, _, e⟩
    · simp [ht] at a
    · omega
    · omega
    · rw [e]; rfl
  | succ n ih =>
    rcases stepMeasure_cases s with ⟨a, _⟩ | ⟨_, _, hl, e⟩ | ⟨_, _, hl, e⟩ | ⟨_, a, _⟩
    · simp [ht] at a
    · have hk' : s.highTick.d = some (k + 1) := by simp [hkd]
      have hc' : (k + 1) + n = fineTimeout s.highTick.params := by
        simp only [State.tick_params, State.countHigh_params]
        omega
      obtain ⟨m, hm, hrun, hq⟩ := ih s.highTick (by simpa using hr) (by simpa using hd) (by simpa using hs)
        (by simp) (k + 1) hk' hc' (by simpa using hb) (by simp [sequencerStep, hs]) (readD_of_some hk')
      refine ⟨m + 1 + 1, by omega, ?_, by rw [measureLoop_high ht hl]; exact hq⟩
      have htick : step s.countHigh = .next s.highTick := by
        rw [step_in_flight (s := s.countHigh) (by simpa using hr) (by simpa using hd) (by simpa using hb)]
        simp [sequencerStep, hs, stepMeasure]
      rw [measureLoop_high ht hl, run_succ (by rw [step_in_flight hr hd hb, hrow, e]), run_succ htick, hrun]
    · refine ⟨1, by omega, run_one ?_, by simp [measureLoop_low hl, hkd, hk]⟩
      rw [step_in_flight hr hd hb, hrow, e, measureLoop_low hl]
    · omega

end Sys2Proof.Machine
end

