-- ==== Sys2Proof/Tests/Slice0.lean ====
section
/-! SUPPORT. Tests against the spec's own vectors (95_test_vectors.md), the smoke tests of the
well-formedness checks, and one witness for each hypothesis a statement makes. Expected values are
the spec's, or counted by hand from its rules. -/

namespace Sys2Proof.Tests

open Sys2Proof.Machine

/-! ### States the tests start from -/

/-- `TIMEOUT = 100`, the setting of 95_test_vectors.md section 0. -/
def hundred : Parameters where
  timeout := 100
  samplerTickUs := 1
  durationTickUs := 7
  inputPull := .floating

/-- The state after CONSTRUCT 7 (10_state.md R44), with no events recorded yet. -/
def bound : State :=
  { State.reset with params := hundred, handleExists := true, pin := some 7, dir := some .input }

/-- The same handle after V-F1: temperature 0x00C8, humidity 0x014C. -/
def cached : State :=
  { bound with cacheWritten := true, cacheT := some 0x00C8#16, cacheH := some 0x014C#16 }

/-- A sampler phase with `C = n` and `l` on the line. -/
def polling (p : Phase) (n : Nat) (l : Level) : State :=
  { bound with phase := p, c := some n, line := [l] }

/-- The measurement of bit `i` of byte `k` with `D = n`, accumulator `a` and `l` on the line. -/
def measuring (k : Fin 5) (i : Fin 8) (a : Byte) (n : Nat) (l : Level) : State :=
  { bound with
    phase := .bMeasure, c := some 0, d := some n, line := [l], acc := some a, byteIdx := some k, bitIdx := some i }

/-- The commit of a frame. -/
def committing (b0 b1 b2 b3 b4 : Byte) : State :=
  { bound with phase := .uCommit, frame := #v[some b0, some b1, some b2, some b3, some b4] }

/-- The next state a step or a meaning answers satisfies `p`. -/
def answers (o : Outcome) (p : State → Bool) : Bool :=
  match o with
  | .next t => p t
  | .fault _ => false
  | .refused _ => false

/-! ### Well-formedness smoke tests -/

/-- 00_scope.md R7: `TIMEOUT = 9` is refused and 10 is not. -/
theorem smoke_parameters_refuse_nine :
    Parameters.wf { hundred with timeout := 9 } = false ∧
      Parameters.wf { hundred with timeout := 10 } = true := by decide

/-- 30_encoding.md R73, V-D11: UPDATE with OPD 1 is no legal word. -/
theorem smoke_legalWord_refuses_update_operand :
    legalWord 0x0102#16 = false ∧ legalWord 0x0002#16 = true := by decide

/-- V-D8: the all-zero word is no legal word. -/
theorem smoke_legalWord_refuses_zero : legalWord 0x0000#16 = false := by decide

/-- 70_reset_and_hazards.md R234: a program that starts with UPDATE is ill formed. -/
theorem smoke_program_refuses_update_first :
    Program.wf [.update] = false ∧ Program.wf [.construct 7#8, .update] = true := by decide

/-- 10_state.md R22: no pin is illegal. -/
theorem smoke_every_pin_is_wf : (Instr.construct 255#8).wf = true := by decide

/-! ### Encoding (V-D1 to V-D15), words written out from R70 and R71 -/

theorem test_decode_construct : decode 0b0000011100000001#16 = .command (.construct 7#8) := by decide
theorem test_decode_construct_ab : decode 0xAB01#16 = .command (.construct 171#8) := by decide
theorem test_decode_update : decode 0b0000000000000010#16 = .command .update := by decide
theorem test_decode_lastT : decode 0b0000000000000011#16 = .command .lastT := by decide
theorem test_decode_lastH : decode 0b0000000000000100#16 = .command .lastH := by decide
theorem test_decode_first_opcode_past_the_table : decode 0x0005#16 = .illegal 0x0005#16 := by decide
theorem test_decode_lastT_with_operand : decode 0xFF03#16 = .illegal 0xFF03#16 := by decide
theorem test_decode_lastH_with_operand : decode 0x8004#16 = .illegal 0x8004#16 := by decide
theorem test_decode_opcode_zero_with_operand : decode 0x0100#16 = .illegal 0x0100#16 := by decide
theorem test_decodeTableWord : decodeTableWord 16 0x0701 = some (.construct 7#8) := by decide
theorem test_decodeTableWord_illegal : decodeTableWord 16 0x0102 = none := by decide

/-- R75: `CONSTRUCT 255` is 0xFF01. -/
theorem test_encode_construct : encode (.construct 255#8) = 0xFF01#16 := by decide

/-- P1: the encoding stream of `CONSTRUCT 7; UPDATE; LAST_H; LAST_T`, with a comment, a blank line and
the mnemonics in mixed case. -/
theorem test_assemble_p1 :
    assemble ["CONSTRUCT 7 ; bind".toList, "".toList, "Update".toList, "last_h".toList, "LAST_T".toList] =
      some [0x0701#16, 0x0002#16, 0x0004#16, 0x0003#16] := by decide

/-- R82, R84: a hexadecimal pin and the pseudo-instruction. -/
theorem test_assemble_read_all :
    assemble ["construct(0xFf)".toList, "READ_ALL".toList] =
      some [0xFF01#16, 0x0002#16, 0x0004#16, 0x0003#16] := by decide

/-- R82: a pin above 255 is no pin. -/
theorem test_parseLine_refuses_pin_256 : parseLine "CONSTRUCT 256".toList = none := by decide

/-! ### Host commands, one step each -/

/-- V-X4: CONSTRUCT 5 at power-on. -/
theorem test_construct_at_power_on :
    answers (step (State.reset.withFetchWord 16 0x0501)) (fun t =>
      t.handleExists && t.pin == some 5#8 && t.dir == some .input && t.events == [.evMode .input] &&
        t.fault.isEmpty && t.responses == [.completion]) = true := by decide

/-- R22, R103: CONSTRUCT's SetMode is made on the pin it binds, also when another was bound. -/
theorem test_construct_calls_the_new_pin :
    answers (exec (.construct 9#8) cached) (fun t => t.calls == [.setMode 9 .input]) = true := by decide

/-- R12, R22: a read, a write and a mode are made on PIN, a delay on none (R213). -/
theorem test_calls_name_the_pin :
    answers (step (polling .uAckLow 3 .high)) (fun t => t.calls == [.read 7 .high]) = true ∧
      answers (step { bound with phase := .uWakeDrive }) (fun t => t.calls == [.write 7 .low]) = true ∧
      answers (step { bound with phase := .uRelMode }) (fun t => t.calls == [.setMode 7 .input]) = true ∧
      answers (step { bound with phase := .uRelSettle }) (fun t => t.calls == [.delayMicroseconds 10]) = true := by
  decide

/-- V-X9: CONSTRUCT 9 after V-F1 discards the cache. -/
theorem test_construct_discards_the_cache :
    answers (exec (.construct 9#8) cached) (fun t =>
      t.pin == some 9#8 && !t.cacheWritten && t.cacheT == none && t.cacheH == none && t.result == none) = true := by
  decide

/-- V-X1: UPDATE at power-on raises NoHandle. -/
theorem test_update_without_handle :
    answers (step (State.reset.withFetchWord 16 0x0002)) (fun t =>
      t.fault == [.noHandle 0x0002#16] && t.events.isEmpty) = true := by decide

/-- R35, first row: UPDATE accepted. -/
theorem test_update_accepted :
    answers (exec .update bound) (fun t =>
      t.phase == .uIdleWait && t.c == some 0 && t.abort == some .noAbort && t.responses.isEmpty) = true := by
  decide

/-- V-F1, V-X10: LAST_T responds 0x00C8. -/
theorem test_lastT_responds :
    answers (exec .lastT cached) (fun t => t.responses == [.word 0x00C8#16] && t.fault.isEmpty) = true := by
  decide

/-- V-X2: NoHandle comes before UninitCacheRead. -/
theorem test_lastT_without_handle :
    answers (step (State.reset.withFetchWord 16 0x0003)) (fun t => t.fault == [.noHandle 0x0003#16]) = true := by
  decide

/-- V-F1: LAST_H responds 0x014C. -/
theorem test_lastH_responds :
    answers (exec .lastH cached) (fun t => t.responses == [.word 0x014C#16] && t.fault.isEmpty) = true := by
  decide

/-- V-X5: LAST_H before any commit. -/
theorem test_lastH_before_commit :
    answers (exec .lastH bound) (fun t => t.fault == [.uninitCacheRead .lastH] && t.responses.isEmpty) = true := by
  decide

/-- V-X3: an illegal word at power-on, before NoHandle. -/
theorem test_illegal_word_at_power_on :
    answers (step (State.reset.withFetchWord 16 0x0000)) (fun t =>
      t.fault == [.illegalCommand 0x0000#16]) = true := by decide

/-- V-X6: LAST_T while a bit is measured. -/
theorem test_overlap_in_measure :
    answers (step ((measuring 0 0 0 1 .low).withFetchWord 16 0x0003)) (fun t =>
      t.fault == [.overlap 0x0003#16] && t.phase == .bMeasure && t.responses.isEmpty) = true := by decide

/-- V-X7: Overlap comes before IllegalCommand. -/
theorem test_overlap_before_illegal :
    answers (step ({ bound with phase := .uWakeHold }.withFetchWord 16 0x0000)) (fun t =>
      t.fault == [.overlap 0x0000#16]) = true := by decide

/-- V-X8: nothing is accepted once FAULT is non-empty. -/
theorem test_faulted_core_accepts_nothing :
    step ({ bound with fault := [.noHandle 0x0002#16] }.withFetchWord 16 0x0701) = .fault .quiescent := rfl

/-! ### Rows of the step table -/

/-- V-W3 with `TIMEOUT = 100`: the match at read number TIMEOUT succeeds (R143). -/
theorem test_sampler_match_at_the_last_read :
    answers (step (polling .uIdleWait 99 .high)) (fun t => t.phase == .uWakeMode && t.c == some 99) = true := by
  decide

/-- V-W4: after TIMEOUT mismatches no further value is read. -/
theorem test_sampler_timeout :
    answers (step (polling .uIdleWait 100 .high)) (fun t =>
      t.phase == .idle && t.abort == some .idleTimeout && t.result == some false && t.events.isEmpty &&
        t.line == [.high] && t.responses == [.updateResult false]) = true := by decide

/-- R140, R14: a mismatch counts, and the delay is the next step's. -/
theorem test_sampler_mismatch :
    answers (step (polling .uAckLow 3 .high)) (fun t =>
      t.phase == .uAckLow && t.c == some 4 && t.events == [.evRead .high] && t.tickDue) = true := by decide

/-- R140, R145: the delay of a counted poll, with no further read, also at the ceiling. -/
theorem test_sampler_tick :
    answers (step { polling .uAckLow 100 .high with tickDue := true }) (fun t =>
      t.phase == .uAckLow && t.c == some 100 && t.events == [.evDelay 1] && !t.tickDue && t.line == [.high]) =
        true := by decide

/-- R160: the delay of a counted HIGH poll is the discriminator's tick. -/
theorem test_measure_tick :
    answers (step { measuring 0 0 0 4 .low with tickDue := true }) (fun t =>
      t.d == some 4 && t.events == [.evDelay 7] && t.phase == .bMeasure && t.line == [.low]) = true := by decide

/-- R30: at the commit ACC holds no value, and FRAME holds the checksum byte. -/
theorem test_last_byte_leaves_no_acc :
    answers (step (measuring 4 7 0xD6 6 .low)) (fun t =>
      t.acc == none && t.frame == #v[none, none, none, none, some 0xD7] && t.phase == .uCommit) = true := by decide

/-- V-E1: the wake pulse holds 1000 microseconds. -/
theorem test_wake_hold :
    answers (step { bound with phase := .uWakeHold }) (fun t =>
      t.phase == .uRelMode && t.events == [.evDelay 1000]) = true := by decide

/-- V-M2: `d = 3` is a 0, and bit index 0 lands in bit 7. -/
theorem test_measure_three_is_zero :
    answers (step (measuring 0 0 0xFF 3 .low)) (fun t =>
      t.acc == some 0x7F#8 && t.bitIdx == some 1 && t.phase == .bLow && t.c == some 0) = true := by decide

/-- V-M3, V-B5: `d = 4` is a 1, and bit index 7 lands in bit 0 and ends the byte. -/
theorem test_measure_four_is_one :
    answers (step (measuring 1 7 0x4C 4 .low)) (fun t =>
      t.frame == #v[none, some 0x4D, none, none, none] && t.byteIdx == some 2 && t.bitIdx == some 0 &&
        t.acc == some 0) = true := by decide

/-- V-M5, V-H5: ten HIGH polls are too long. -/
theorem test_measure_too_long :
    answers (step (measuring 1 0 0 10 .high)) (fun t =>
      t.abort == some (.bitTooLong 1 0) && t.phase == .idle && t.events.isEmpty) = true := by decide

/-- V-F2: the commit of `01 4C 80 0A D7`. -/
theorem test_commit_negative_temperature :
    answers (step (committing 0x01 0x4C 0x80 0x0A 0xD7)) (fun t =>
      t.cacheH == some 0x014C#16 && t.cacheT == some 0xFFF6#16 && t.result == some true &&
        t.responses == [.updateResult true] && t.abort == some .noAbort) = true := by decide

/-- V-F3: a failed checksum still writes the cache. -/
theorem test_commit_write_through :
    answers (step (committing 0x02 0x8C 0x01 0x5F 0xEF)) (fun t =>
      t.cacheH == some 0x028C#16 && t.cacheT == some 0x015F#16 && t.cacheWritten && t.result == some false &&
        t.abort == some .checksumMismatch) = true := by decide

/-! ### Values (V-C, V-N, codes) -/

/-- V-C3, V-C4: the checksum wraps. -/
theorem test_checksum_wraps :
    checksumOK 0xFF 0xFF 0xFF 0xFF 0xFC = true ∧ checksumOK 0xFF 0xFF 0xFF 0xFF 0xFF = false ∧
      checksumOK 0x80 0x80 0x00 0x00 0x00 = true := by decide

/-- V-N3, V-N4, V-N6, V-N9. -/
theorem test_signCorrect :
    signCorrect 0x7FFF = 0x7FFF ∧ signCorrect 0x8000 = 0x0000 ∧ signCorrect 0x800A = 0xFFF6 ∧
      signCorrect 0xFFFF = 0x8001 := by decide

/-- V-F2, V-F5: the signed reading of a response. -/
theorem test_asInt16 : asInt16 0xFFF6 = -10 ∧ asInt16 0x8001 = -32767 ∧ asInt16 0xFFFF = -1 := by decide

/-- 60_exceptions.md R201, R202 and 00_scope.md R10: the codes. -/
theorem test_codes :
    abortCode .checksumMismatch = 7 ∧ modelFaultCode (.uninitCacheRead .lastT) = 4 ∧
      levelCode .high = 1 ∧ modeCode .output = 1 := by decide

/-! ### Witnesses: for each statement with hypotheses, a state that meets them -/

theorem witness_IllegalWordsAreTheOnesNamed : decode 0x0005#16 = .illegal 0x0005#16 := by decide

theorem witness_AliasesMeanTheirCommands :
    parsePin ['2', '5', '5'] = some 255#8 ∧ parsePin ['0', 'x', '0', '0'] = some 0#8 := by decide

theorem witness_PinNumeralsDenoteTheirValue_decimal :
    [2, 5, 5] ≠ ([] : List Nat) ∧ (∀ n ∈ [2, 5, 5], n < 10) ∧ (∀ n ∈ [2, 5, 6], n < 10) := by decide

theorem witness_PinNumeralsDenoteTheirValue_hex :
    15 < 16 ∧ 'F' ∈ [Nat.digitChar 15, (Nat.digitChar 15).toUpper] ∧
      'f' ∈ [Nat.digitChar 15, (Nat.digitChar 15).toUpper] := by decide

theorem witness_HostProgramLinesAreRead :
    "Update".toList.map Char.toUpper = "UPDATE".toList ∧ "last_T".toList.map Char.toUpper = "LAST_T".toList ∧
      "Last_H".toList.map Char.toUpper = "LAST_H".toList ∧
      "read_All".toList.map Char.toUpper = "READ_ALL".toList ∧
      "Construct".toList.map Char.toUpper = "CONSTRUCT".toList ∧ parsePin ['0', 'x', 'f', 'F'] = some 255#8 := by
  decide

theorem witness_ResponsesCarryTheirBits : (15 : Nat) < 16 := by decide

theorem witness_PowerOnAcceptsOnlyConstruct : ∀ pin, Instr.lastH ≠ .construct pin := by simp

theorem witness_StepRunsThePresentedCommand_present :
    { bound with host := [.present 0 0x0701#16] }.host = .present 0 0x0701#16 :: [] ∧
      decode 0x0701#16 = .command (.construct 7#8) := by decide

theorem witness_StepRunsThePresentedCommand_issue :
    ({ bound with host := [.issue 0x0004#16] }.host = .issue 0x0004#16 :: [] ∧ bound.phase = .idle) ∧
      decode 0x0004#16 = .command .lastH := by decide

theorem witness_StepRunsThePresentedCommand_tableWord : decodeTableWord 16 0xFF01 = some (.construct 255#8) := by
  decide

theorem witness_StepTakesTheSequencerRow_none : bound.runnable = true ∧ bound.host = [] := by decide

theorem witness_StepTakesTheSequencerRow_waiting :
    { polling .bLow 0 .low with host := [.issue 0x0003#16] }.runnable = true ∧
      { polling .bLow 0 .low with host := [.issue 0x0003#16] }.host = .issue 0x0003#16 :: [] ∧
      (polling .bLow 0 .low).phase ≠ .idle := by decide

theorem witness_StepTakesTheSequencerRow_delayed :
    { bound with host := [.present 1 0x0003#16] }.runnable = true ∧
      { bound with host := [.present 1 0x0003#16] }.host = .present (0 + 1) 0x0003#16 :: [] := by decide

theorem witness_StepTakesTheSequencerRow_idle :
    bound.runnable = true ∧ bound.phase = .idle ∧ bound.host = [] ∧
      { bound with host := [.present 1 0x0003#16] }.phase = .idle := by decide

theorem witness_AcceptanceChecksInOrder :
    hostMove { bound with host := [.present 0 0x0102#16] } = (some 0x0102#16, []) ∧
      hostMove { bound with host := [.issue 0x0002#16] } = (some 0x0002#16, []) ∧
      decode 0x0102#16 = .illegal 0x0102#16 ∧ decode 0x0002#16 = .command .update := by decide

theorem witness_OverlapStopsTheCommandInFlight :
    (polling .bHigh 0 .low).runnable = true ∧ (polling .bHigh 0 .low).phase ≠ .idle ∧
      hostMove { polling .bHigh 0 .low with host := [.present 0 0x0003#16] } = (some 0x0003#16, []) := by decide

theorem witness_NoHandleIsRaised :
    { bound with handleExists := false }.ready = true ∧ { bound with handleExists := false }.handleExists = false := by
  decide

theorem witness_UnwrittenCacheReadIsRaised :
    bound.ready = true ∧ bound.handleExists = true ∧ bound.cacheWritten = false := by decide

theorem witness_FaultedCoreIsQuiescent :
    { bound with fault := [.overlap 0x0002#16] }.fault ≠ [] ∧
      { bound with fault := [.overlap 0x0002#16] }.params.wf = true := by decide

theorem witness_ShortTimeoutIsRefused :
    { bound with params := { hundred with timeout := 9 } }.params.timeout < 10 := by decide

/-- A state the core holds: the idle core with no host move answers itself as the next state. -/
theorem step_bound : step bound = .next bound := rfl

theorem witness_NothingWritesTheConfiguration : step bound = .next bound := step_bound

theorem witness_ConstructResetsTheHandle : bound.ready = true ∧ cached.ready = true := by decide

theorem witness_UpdateIsAccepted : bound.ready = true ∧ bound.handleExists = true := by decide

theorem witness_LastTRespondsTheCachedTemperature :
    cached.ready = true ∧ cached.handleExists = true ∧ cached.cacheWritten = true ∧
      cached.cacheT = some 0x00C8#16 := by decide

theorem witness_LastHRespondsTheCachedHumidity :
    cached.ready = true ∧ cached.handleExists = true ∧ cached.cacheWritten = true ∧
      cached.cacheH = some 0x014C#16 := by decide

theorem witness_AccessorsHaveNoSideEffects :
    cached.ready = true ∧ cached.handleExists = true ∧ cached.cacheWritten = true ∧
      cached.cacheT = some 0x00C8#16 ∧ cached.cacheH = some 0x014C#16 ∧
      ∀ i ∈ [Instr.lastT, .lastH, .lastT], i = .lastT ∨ i = .lastH := by decide

theorem witness_SamplerMatchTakesTheSuccessExit :
    (polling .uIdleWait 99 .high).tickDue = false ∧ (polling .uIdleWait 99 .high).c = some 99 ∧ 99 < (polling .uIdleWait 99 .high).params.timeout ∧
      (polling .uIdleWait 99 .high).phase = .uIdleWait ∧ (polling .uIdleWait 99 .high).nextLevel = .high ∧
      (polling .uAckLow 99 .low).phase = .uAckLow ∧ (polling .uAckLow 99 .low).nextLevel = .low ∧
      (polling .uAckHigh 99 .high).phase = .uAckHigh ∧ (polling .bLow 99 .low).phase = .bLow ∧
      (polling .bHigh 99 .high).phase = .bHigh := by decide

theorem witness_SamplerMismatchCountsAndDelays :
    { polling .uIdleWait 100 .low with tickDue := true }.tickDue = true ∧
      (Phase.uIdleWait, Level.high) ∈ [(Phase.uIdleWait, Level.high), (Phase.uAckLow, Level.low),
        (Phase.uAckHigh, Level.high), (Phase.bLow, Level.low), (Phase.bHigh, Level.high)] ∧
      (polling .bHigh 99 .low).tickDue = false ∧ (polling .bHigh 99 .low).c = some 99 ∧ 99 < (polling .bHigh 99 .low).params.timeout ∧
      ((polling .bHigh 99 .low).phase, Level.high) ∈ [(Phase.uIdleWait, Level.high),
        (Phase.uAckLow, Level.low), (Phase.uAckHigh, Level.high), (Phase.bLow, Level.low),
        (Phase.bHigh, Level.high)] ∧
      (polling .bHigh 99 .low).nextLevel ≠ .high := by decide

theorem witness_SamplerTimeoutFailsWithItsReason :
    (polling .uIdleWait 100 .low).tickDue = false ∧
      (polling .uIdleWait 100 .low).c = some (polling .uIdleWait 100 .low).params.timeout ∧
      (polling .uIdleWait 100 .low).phase = .uIdleWait ∧ (polling .uAckLow 100 .low).phase = .uAckLow ∧
      (polling .uAckHigh 100 .low).phase = .uAckHigh := by decide

theorem witness_SamplerTimeoutFailsWithItsReason_bit :
    { measuring 4 7 0 0 .low with phase := .bLow, c := some 100 }.c = some 100 ∧
      { measuring 4 7 0 0 .low with phase := .bLow, c := some 100 }.params.timeout = 100 ∧
      (measuring 4 7 0 0 .low).byteIdx = some 4 ∧ (measuring 4 7 0 0 .low).bitIdx = some 7 := by decide

theorem witness_TimeoutIsDeclaredOnlyAtTheCeiling :
    (polling .uAckHigh 99 .low).phase.samples = true ∧ (polling .uAckHigh 99 .low).c = some 99 ∧
      99 < (polling .uAckHigh 99 .low).params.timeout ∧ (polling .uAckHigh 100 .low).c = some 100 ∧
      100 ≤ (polling .uAckHigh 100 .low).params.timeout ∧ (polling .uAckHigh 100 .low).tickDue = false ∧
      { polling .uAckHigh 100 .low with tickDue := true }.tickDue = true := by decide

theorem witness_FailureLeavesTheCoreReady :
    (polling .bLow 100 .high).runnable = true ∧ (polling .bLow 100 .high).handleExists = true := by decide

theorem witness_WakePulseAndReleaseRows :
    { bound with phase := .uWakeMode }.phase = .uWakeMode ∧ { bound with phase := .uWakeDrive }.phase = .uWakeDrive ∧
      { bound with phase := .uWakeHold }.phase = .uWakeHold ∧ { bound with phase := .uRelMode }.phase = .uRelMode ∧
      { bound with phase := .uRelSettle }.phase = .uRelSettle := by decide

theorem witness_MeasureCountsHighPolls :
    (measuring 0 3 0 9 .high).phase = .bMeasure ∧ (measuring 0 3 0 9 .high).tickDue = false ∧
      { measuring 0 3 0 10 .high with tickDue := true }.tickDue = true ∧ (measuring 0 3 0 9 .high).d = some 9 ∧
      9 < fineTimeout (measuring 0 3 0 9 .high).params ∧ (measuring 0 3 0 9 .high).nextLevel = .high ∧
      (measuring 0 3 0 10 .high).d = some 10 ∧ 10 = fineTimeout (measuring 0 3 0 10 .high).params ∧
      (measuring 0 3 0 10 .high).byteIdx = some 0 ∧ (measuring 0 3 0 10 .high).bitIdx = some 3 := by decide

theorem witness_LowPollEndsTheBit :
    (measuring 0 6 0 9 .low).phase = .bMeasure ∧ (measuring 0 6 0 9 .low).tickDue = false ∧ (measuring 0 6 0 9 .low).d = some 9 ∧
      9 < fineTimeout (measuring 0 6 0 9 .low).params ∧ (measuring 0 6 0 9 .low).nextLevel = .low ∧
      (measuring 0 6 0 9 .low).acc = some 0 ∧ (measuring 0 6 0 9 .low).byteIdx = some 0 ∧
      (measuring 0 6 0 9 .low).bitIdx = some 6 ∧ ((6 : Fin 8) < 7) ∧
      (measuring 3 7 0 9 .low).byteIdx = some 3 ∧ (measuring 3 7 0 9 .low).bitIdx = some 7 ∧ ((3 : Fin 5) < 4) ∧
      (measuring 4 7 0 9 .low).byteIdx = some 4 := by decide

theorem witness_CommitWritesTheCacheThenChecks :
    (committing 1 2 3 4 10).phase = .uCommit ∧
      (committing 1 2 3 4 10).frame = #v[some 1, some 2, some 3, some 4, some 10] := by decide

theorem witness_OneBitsNeedAFineCeilingOfFive_received :
    (measureHigh { bound with line := [.high, .high, .high, .high, .low] }).1 = some 4 ∧ classify 4 = true := by
  decide

theorem witness_OneBitsNeedAFineCeilingOfFive_tooLong :
    10 ≤ { hundred with timeout := 49 }.timeout ∧ { hundred with timeout := 49 }.timeout ≤ 49 ∧
      ∀ j < 4, { bound with line := [.high, .high, .high, .high] }.answer j = .high := by decide

theorem witness_SignCorrectionNegatesTheMagnitude : (0x7FFF : Nat) ≤ 0x7FFF := by decide

theorem witness_BitLandsAtItsPosition : (7 : Nat) < 8 := by decide

theorem witness_WaitForPinSucceedsOnTheFirstMatch :
    2 < bound.params.timeout ∧ { bound with line := [.low, .low, .high] }.answer 2 = .high ∧
      ∀ j < 2, { bound with line := [.low, .low, .high] }.answer j ≠ .high := by decide

/-- V-W5: ten HIGH reads with `TIMEOUT = 10`. -/
theorem witness_WaitForPinTimesOutAtTheCeiling :
    ∀ k < 10, { bound with line := List.replicate 10 .high }.answer k ≠ .low := by decide

theorem witness_MeasureHighOutcomes :
    (measureHigh { bound with line := [.high, .low] }).1 = some 1 ∧
      (measureHigh { bound with line := List.replicate 10 .high }).1 = none := by decide

theorem bound_inv : bound.Inv where
  handle := by simp [State.handleInv, bound]
  dir := by simp [State.dirInv, bound, State.reset, Phase.drives]
  latch := by simp [State.latchInv, bound, State.reset]
  cache := by simp [State.cacheInv, bound, State.reset]
  counters := by simp [State.counterInv, bound, State.reset, Phase.samples]
  frame := by simp [State.frameInv, bound, State.reset, Phase.inBit]
  transient := by simp [State.transientInv, bound, State.reset]
  scope := by simp [State.scopeInv, bound, State.reset]
  tick := by simp [State.tickInv, bound, State.reset]
  calls := by simp [State.callsInv, bound, State.reset]
  faults := by simp [State.faultInv, bound, State.reset]

theorem witness_StepKeepsTheInvariant : bound.Inv ∧ step bound = .next bound := ⟨bound_inv, step_bound⟩

theorem witness_StepNeverReadsTheWriteOnlyElements :
    bound.unread = { bound with events := [.evRead .low], calls := [.write 3 .low], result := some true }.unread := rfl

theorem witness_StepNeverReadsTheWriteOnlyElements_pin :
    (polling .bLow 0 .low).unreadPin = { polling .bLow 0 .low with pin := some 9, dir := none }.unreadPin ∧
      (polling .bLow 0 .low).line ≠ [] := ⟨rfl, by decide⟩

theorem witness_OnlyCommitWritesTheCache :
    answers (step (committing 1 2 3 4 10)) (fun t => t.cacheWritten) = true := by decide

theorem witness_OutputLatchIsOnlyEverDrivenLow :
    answers (step { bound with phase := .uWakeDrive }) (fun t => t.outLevel == some .low) = true := by decide

theorem witness_TrueComesOnlyFromAMatchingChecksum :
    answers (step (committing 1 2 3 4 10)) (fun t => t.responses == [.updateResult true]) = true := by decide

theorem witness_EventsAreOnlyAppended : step bound = .next bound := step_bound

/-- Two handles on two lines. -/
def twoLines : List State := [cached, { bound with pin := some 8 }]

theorem witness_InstancesAreIndependent :
    stepInstance 1 twoLines = .next twoLines ∧ (0 : Nat) ≠ 1 ∧ twoLines[1]? = some { bound with pin := some 8 } :=
  ⟨rfl, by decide, rfl⟩

/-- R214, R234: handle 1 binds the line 7 of handle 0, and that is no move. -/
theorem test_second_handle_on_one_line :
    stepInstance 1 [cached, State.withFetchWord { bound with pin := some 8 } 16 0x0701] = .refused .sharedLine := rfl

theorem witness_SharedLineIsRefused_free :
    exclusiveLines twoLines = true ∧ twoLines[1]? = some { bound with pin := some 8 } ∧
      step { bound with pin := some 8 } = .next { bound with pin := some 8 } := ⟨by decide, rfl, rfl⟩

theorem witness_SharedLineIsRefused_shared :
    exclusiveLines [cached, State.withFetchWord { bound with pin := some 8 } 16 0x0701] = true ∧
      answers (step (State.withFetchWord { bound with pin := some 8 } 16 0x0701)) (fun t => t.pin == cached.pin) =
        true := by decide

theorem witness_HandshakeEventsInOrder :
    { bound with line := handshakeLevels 2 1 1 ++ [] }.ready = true ∧ bound.tickDue = false ∧
      { bound with line := handshakeLevels 2 1 1 ++ [] }.disciplined = true ∧ bound.handleExists = true ∧
      2 < bound.params.timeout ∧ 1 < bound.params.timeout := by decide

/-- A bit at its start, with the waveform of the count 6 on the line. -/
def bitStart (k : Fin 5) (i : Fin 8) : State :=
  { measuring k i 0xA4 0 .low with phase := .bLow, line := bitLevels ⟨1, 1, 6⟩ ++ [] }

theorem witness_BitIsReceived :
    (bitStart 4 7).runnable = true ∧ (bitStart 4 7).disciplined = true ∧ (bitStart 4 7).phase = .bLow ∧
      (bitStart 4 7).tickDue = false ∧ (bitStart 4 7).c = some 0 ∧ (bitStart 4 7).acc = some 0xA4 ∧
      (bitStart 4 7).byteIdx = some 4 ∧ (bitStart 4 7).bitIdx = some 7 ∧
      BitTiming.within (bitStart 4 7).params ⟨1, 1, 6⟩ = true := by decide

/-- The clause of a bit that is not its byte's last, at its boundary. -/
theorem witness_BitIsReceived_next_bit :
    (bitStart 0 6).runnable = true ∧ (bitStart 0 6).disciplined = true ∧ (bitStart 0 6).byteIdx = some 0 ∧
      (bitStart 0 6).bitIdx = some 6 ∧ (6 : Fin 8) < 7 := by decide

/-- The clause of a byte that is not the frame's last, at its boundary. -/
theorem witness_BitIsReceived_next_byte :
    (bitStart 3 7).runnable = true ∧ (bitStart 3 7).disciplined = true ∧ (bitStart 3 7).byteIdx = some 3 ∧
      (bitStart 3 7).bitIdx = some 7 ∧ (3 : Fin 5) < 4 := by decide

/-- V-H1 with `TIMEOUT = 10`: the idle wait times out. -/
theorem witness_FailureBeforeCommitLeavesTheCache :
    (updateCall { bound with params := { hundred with timeout := 10 }, line := List.replicate 10 .low }).abort =
      some .idleTimeout := by decide

theorem witness_UpdateRunsTheRulesPseudocode :
    bound.ready = true ∧ bound.tickDue = false ∧ bound.handleExists = true ∧ bound.disciplined = true := by decide

theorem witness_UpdateAlwaysResponds :
    bound.ready = true ∧ bound.tickDue = false ∧ bound.handleExists = true ∧ bound.disciplined = true := by decide

/-- R241: the shortest successful UPDATE, the all-zero frame with every `d = 0`. -/
def shortest : State :=
  { bound with line := handshakeLevels 0 0 0 ++ frameLevels fun _ _ => ⟨0, 0, 0⟩ }

/-- The response true of UpdateAlwaysResponds is reached: 123 reads and 6 further steps after the
acceptance, R241's least. -/
theorem witness_UpdateAlwaysResponds_true :
    answers (run 129 shortest.acceptUpdate) (fun t =>
      t.phase == .idle && t.result == some true && readCount t.events == 123) = true := by decide +kernel

theorem witness_ConstructThenUpdateEndsSuccessfully :
    { bound with host := [.issue (encode (.construct 3#8)), .issue (encode .update)] }.ready = true ∧
      bound.tickDue = false := by decide

/-- A frame of the canonical counts of 95_test_vectors.md section 0: every 0 with `d = 2`, every 1 with
`d = 6`. -/
def canonicalTiming (f : Fin 5 → Byte) (k : Fin 5) (i : Fin 8) : BitTiming where
  a := 0
  b := 0
  d := if (f k).getLsbD (bitPosition i) then 6 else 2

/-- V-F1: the frame `01 4C 00 C8 15`. -/
def frameF1 : Fin 5 → Byte := ![0x01, 0x4C, 0x00, 0xC8, 0x15]

theorem canonicalTiming_sends (f : Fin 5 → Byte) : sends (canonicalTiming f) f := by
  intro k i
  unfold canonicalTiming
  cases (f k).getLsbD (bitPosition i) <;> decide

theorem witness_FrameOnTheLineIsDecoded :
    (bound.ready = true ∧ bound.tickDue = false) ∧ bound.handleExists = true ∧ bound.disciplined = true ∧
      0 < bound.params.timeout ∧
      (∀ k i, (canonicalTiming frameF1 k i).within bound.params = true) ∧
      sends (canonicalTiming frameF1) frameF1 :=
  ⟨by decide, by decide, by decide, by decide, by decide, canonicalTiming_sends frameF1⟩

end Sys2Proof.Tests
end

namespace Sys2Proof.Machine

/-! ### A configuration without a meaning (00_scope.md R7) -/

/-- A configuration is well formed exactly when its `TIMEOUT` is not short. -/
theorem wf_eq_false_iff {p : Parameters} : p.wf = false ↔ p.timeout < 10 := by
  simp [Parameters.wf]

/-- `FINE_TIMEOUT` vanishes exactly at the short timeouts, which is why R7 refuses them. -/
theorem fineTimeout_eq_zero_iff {p : Parameters} : fineTimeout p = 0 ↔ p.timeout < 10 := by
  unfold fineTimeout
  omega

/-- No command's meaning acts before the checks of the configuration and of FAULT. -/
theorem exists_exec_eq_whenRunning (i : Instr) (s : State) : ∃ k, exec i s = whenRunning s k := by
  cases i with
  | construct pin => exact ⟨_, rfl⟩
  | update => exact ⟨_, rfl⟩
  | lastT => exact ⟨_, rfl⟩
  | lastH => exact ⟨_, rfl⟩

theorem step_of_short {s : State} (hp : s.params.wf = false) : step s = .refused .timeoutBelowTen :=
  whenRunning_of_short hp

theorem exec_of_short {s : State} (hp : s.params.wf = false) (i : Instr) :
    exec i s = .refused .timeoutBelowTen := by
  obtain ⟨k, hk⟩ := exists_exec_eq_whenRunning i s
  rw [hk]
  exact whenRunning_of_short hp

/-- Settles O16: the step and every command's meaning check the configuration first. -/
theorem shortTimeoutIsRefused : Obligations.ShortTimeoutIsRefused := by
  intro s ht
  have hp : s.params.wf = false := wf_eq_false_iff.mpr ht
  exact ⟨fineTimeout_eq_zero_iff.mpr ht, step_of_short hp, exec_of_short hp⟩

end Sys2Proof.Machine

namespace Sys2Proof.Machine

/-! ### What a step can do, as one relation

`SequencerRow` lists the rows of R35, each with the facts about the state before it that a later proof
needs, and `Move` every step of the machine. A proof about every step is a case analysis of these. -/

/-- The rows of the step table and the state each leaves (10_state.md R35; a poll that goes on is two
rows, log entry 7). -/
inductive SequencerRow (s : State) : State → Prop
  | idle (hp : s.phase = .idle) : SequencerRow s s
  | tick (us : Nat) (hp : s.phase.samples = true ∨ s.phase = .bMeasure) : SequencerRow s (s.tick us)
  | mismatch (hp : s.phase.samples = true) (hc : s.readC < s.params.timeout) : SequencerRow s s.countPoll
  | high (hp : s.phase = .bMeasure) (hd : s.readD < fineTimeout s.params) : SequencerRow s s.countHigh
  | timeout (reason : Abort) (hp : s.phase.samples = true ∨ s.phase = .bMeasure) (ht : s.tickDue = false) :
      SequencerRow s (s.fail reason)
  | idleHigh (hp : s.phase = .uIdleWait) (ht : s.tickDue = false) :
      SequencerRow s (s.afterRead.goto .uWakeMode)
  | wakeMode (hp : s.phase = .uWakeMode) : SequencerRow s ((s.setMode .output).goto .uWakeDrive)
  | wakeDrive (hp : s.phase = .uWakeDrive) : SequencerRow s ((s.lineWrite .low).goto .uWakeHold)
  | wakeHold (hp : s.phase = .uWakeHold) : SequencerRow s ((s.delay wakeUs).goto .uRelMode)
  | relMode (hp : s.phase = .uRelMode) : SequencerRow s ((s.setMode .input).goto .uRelSettle)
  | relSettle (hp : s.phase = .uRelSettle) : SequencerRow s ((s.delay settleUs).enterSampler .uAckLow)
  | ackLow (hp : s.phase = .uAckLow) (ht : s.tickDue = false) :
      SequencerRow s (s.afterRead.enterSampler .uAckHigh)
  | ackHigh (hp : s.phase = .uAckHigh) (ht : s.tickDue = false) : SequencerRow s s.afterRead.startFrame
  | bitLow (hp : s.phase = .bLow) (ht : s.tickDue = false) : SequencerRow s (s.afterRead.enterSampler .bHigh)
  | bitHigh (hp : s.phase = .bHigh) (ht : s.tickDue = false) : SequencerRow s s.afterRead.enterMeasure
  | nextBit (hp : s.phase = .bMeasure) (ht : s.tickDue = false) : SequencerRow s s.afterRead.nextBit
  | nextByte (hp : s.phase = .bMeasure) (ht : s.tickDue = false) (hk : s.afterRead.readByteIdx < 4) :
      SequencerRow s s.afterRead.nextByte
  | lastByte (hp : s.phase = .bMeasure) (ht : s.tickDue = false) (hk : s.afterRead.readByteIdx = 4) :
      SequencerRow s s.afterRead.lastByte
  | commitOK (hp : s.phase = .uCommit) (hf : s.frameOK = true) :
      SequencerRow s (State.finish true { s.writeCache with abort := some .noAbort })
  | commitBad (hp : s.phase = .uCommit) (hf : s.frameOK = false) :
      SequencerRow s (s.writeCache.fail .checksumMismatch)

/-- A sampler's row is a tick, a mismatch or a timeout, or the success exit of its phase. -/
theorem samplerStep_row {target : Level} {reason : Abort} {exit : State → State} {s : State}
    (hp : s.phase.samples = true) (hexit : s.tickDue = false → SequencerRow s (exit s.afterRead)) :
    SequencerRow s (samplerStep target reason exit s) := by
  obtain ⟨_, e⟩ | ⟨ht, _, _, e⟩ | ⟨_, hc, _, e⟩ | ⟨ht, _, e⟩ := samplerStep_cases target reason exit s
  · exact e ▸ .tick _ (.inl hp)
  · exact e ▸ hexit ht
  · exact e ▸ .mismatch hp hc
  · exact e ▸ .timeout _ (.inl hp) ht

theorem stepMeasure_row {s : State} (hp : s.phase = .bMeasure) : SequencerRow s (stepMeasure s) := by
  obtain ⟨_, e⟩ | ⟨_, hd, _, e⟩ | ⟨ht, _, _, e⟩ | ⟨ht, _, e⟩ := stepMeasure_cases s
  · exact e ▸ .tick _ (.inr hp)
  · exact e ▸ .high hp hd
  · rw [e]
    obtain ⟨_, e⟩ | ⟨_, hk, e⟩ | ⟨_, hk, e⟩ := bitDone_cases s.afterRead
    · exact e ▸ .nextBit hp ht
    · exact e ▸ .nextByte hp ht hk
    · exact e ▸ .lastByte hp ht hk
  · exact e ▸ .timeout _ (.inr hp) ht

theorem stepCommit_row {s : State} (hp : s.phase = .uCommit) : SequencerRow s (stepCommit s) := by
  obtain ⟨hf, e⟩ | ⟨hf, e⟩ := deliverResult_cases s.writeCache
  · exact (show stepCommit s = _ from e) ▸ .commitOK hp hf
  · exact (show stepCommit s = _ from e) ▸ .commitBad hp hf

/-- Every step of the sequencer is a row of the step table. -/
theorem sequencerStep_row (s : State) : SequencerRow s (sequencerStep s) := by
  unfold sequencerStep
  split
  · next hp => exact .idle hp
  · next hp => exact samplerStep_row (by simp [hp, Phase.samples]) (.idleHigh hp)
  · next hp => exact .wakeMode hp
  · next hp => exact .wakeDrive hp
  · next hp => exact .wakeHold hp
  · next hp => exact .relMode hp
  · next hp => exact .relSettle hp
  · next hp => exact samplerStep_row (by simp [hp, Phase.samples]) (.ackLow hp)
  · next hp => exact samplerStep_row (by simp [hp, Phase.samples]) (.ackHigh hp)
  · next hp => exact samplerStep_row (by simp [hp, Phase.samples]) (.bitLow hp)
  · next hp => exact samplerStep_row (by simp [hp, Phase.samples]) (.bitHigh hp)
  · next hp => exact stepMeasure_row hp
  · next hp => exact stepCommit_row hp

/-- Every step of the machine that answers a next state: a row, or what acceptance makes of the word the
host presents (40_host_operations.md R100). -/
inductive Move (s : State) : State → Prop
  | row {rest : List HostMove} {t : State} (h : SequencerRow { s with host := rest } t) : Move s t
  | construct {w : Word16} (pin : Byte) (rest : List HostMove) (hm : hostMove s = (some w, rest))
      (hd : decode w = .command (.construct pin)) (hp : s.phase = .idle) :
      Move s (State.construct pin { s with host := rest })
  | update (rest : List HostMove) (hp : s.phase = .idle) (hh : s.handleExists = true) :
      Move s (State.acceptUpdate { s with host := rest })
  | accessor (rest : List HostMove) (v : Word16) : Move s (State.respond (.word v) { s with host := rest })
  | raise (rest : List HostMove) (f : ModelFault) (hf : s.fault = []) :
      Move s (State.raise f { s with host := rest })

/-- The meaning of a presented command is a move. -/
theorem exec_move {s t : State} {w : Word16} {i : Instr} {rest : List HostMove}
    (hm : hostMove s = (some w, rest)) (hd : decode w = .command i) (hf : s.fault = [])
    (h : exec i { s with host := rest } = .next t) : Move s t := by
  obtain ⟨_, ⟨_, rfl⟩ | ⟨hp, pin, rfl, rfl⟩ | ⟨_, _, _, rfl⟩ | ⟨hp, hh, _, rfl⟩ | ⟨_, _, _, _, rfl⟩ |
    ⟨_, _, _, _, rfl⟩ | ⟨_, _, _, _, rfl⟩ | ⟨_, _, _, _, rfl⟩⟩ := exec_cases h
  · exact .raise _ _ hf
  · exact .construct pin rest hm hd hp
  · exact .raise _ _ hf
  · exact .update _ hp hh
  · exact .accessor _ _
  · exact .accessor _ _
  · exact .raise _ _ hf
  · exact .raise _ _ hf

theorem step_move {s t : State} (h : step s = .next t) : Move s t := by
  obtain ⟨hr, ⟨w, rest, hm, ha⟩ | ⟨rest, _, rfl⟩⟩ := step_cases h
  · have hf : s.fault = [] := (runnable_iff.mp hr).2
    obtain ⟨i, hd, he⟩ | ⟨_, _, ⟨_, rfl⟩ | ⟨_, rfl⟩⟩ := accept_cases ha
    · exact exec_move hm hd hf he
    · exact .raise _ _ hf
    · exact .raise _ _ hf
  · exact .row (sequencerStep_row _)

/-! ### What a row leaves unchanged -/

namespace SequencerRow

variable {s t : State}

theorem eq_of_idle (h : SequencerRow s t) (hp : s.phase = .idle) : t = s := by
  cases h <;> simp_all [Phase.samples]

theorem params_eq (h : SequencerRow s t) : t.params = s.params := by cases h <;> rfl

theorem fault_eq (h : SequencerRow s t) : t.fault = s.fault := by cases h <;> rfl

theorem handleExists_eq (h : SequencerRow s t) : t.handleExists = s.handleExists := by cases h <;> rfl

theorem pin_eq (h : SequencerRow s t) : t.pin = s.pin := by cases h <;> rfl

end SequencerRow

/-! ### The configuration (10_state.md R23) -/

theorem Move.params_eq {s t : State} (h : Move s t) : t.params = s.params := by
  cases h with
  | row h => exact h.params_eq
  | construct => rfl
  | update => rfl
  | accessor => rfl
  | raise => rfl

/-- Settles O17: every move keeps the configuration, and the fine ceiling is a function of it. -/
theorem nothingWritesTheConfiguration : Obligations.NothingWritesTheConfiguration := by
  intro s t h
  have hp : t.params = s.params := (step_move h).params_eq
  exact ⟨hp, by rw [fineTimeout, hp]⟩

/-! ### The cache (10_state.md R26-R28) -/

/-- A row leaves the cache as it was, or is the commit. -/
theorem SequencerRow.cache {s t : State} (h : SequencerRow s t) :
    (t.cacheT = s.cacheT ∧ t.cacheH = s.cacheH ∧ t.cacheWritten = s.cacheWritten) ∨
    (s.phase = .uCommit ∧ t.phase = .idle ∧ t.cacheWritten = true ∧
      t.cacheT = some (signCorrect s.temperatureField) ∧ t.cacheH = some s.humidityField) := by
  cases h with
  | commitOK hp => exact .inr ⟨hp, rfl, rfl, rfl, rfl⟩
  | commitBad hp => exact .inr ⟨hp, rfl, rfl, rfl, rfl⟩
  | _ => exact .inl ⟨rfl, rfl, rfl⟩

/-- Settles O46: the cache is written by the commit's rows and by CONSTRUCT, and by no other move. -/
theorem onlyCommitWritesTheCache : Obligations.OnlyCommitWritesTheCache := by
  intro s t h
  cases step_move h with
  | row h => exact h.cache.imp_right fun ⟨hp, hi, hw, _⟩ => .inl ⟨hp, hi, hw⟩
  | construct pin rest hm hd hp => exact .inr (.inr ⟨_, pin, rest, hm, hd, hp, rfl, rfl, rfl⟩)
  | update => exact .inl ⟨rfl, rfl, rfl⟩
  | accessor => exact .inl ⟨rfl, rfl, rfl⟩
  | raise => exact .inl ⟨rfl, rfl, rfl⟩

/-! ### The output latch (10_state.md R25) -/

theorem SequencerRow.outLevel {s t : State} (h : SequencerRow s t) :
    t.outLevel = s.outLevel ∨
      (s.phase = .uWakeDrive ∧ t.outLevel = some .low ∧ t.events = s.events ++ [.evWrite .low]) := by
  cases h with
  | wakeDrive hp => exact .inr ⟨hp, rfl, rfl⟩
  | _ => exact .inl rfl

/-- Settles O47: the wake row is the only row that writes the latch, and CONSTRUCT the only command. -/
theorem outputLatchIsOnlyEverDrivenLow : Obligations.OutputLatchIsOnlyEverDrivenLow := by
  intro s t h
  cases step_move h with
  | row h => exact h.outLevel.imp_right .inl
  | construct pin rest hm hd => exact .inr (.inr ⟨_, pin, rest, hm, hd, rfl⟩)
  | update => exact .inl rfl
  | accessor => exact .inl rfl
  | raise => exact .inl rfl

/-! ### Responses (10_state.md R36) -/

/-- A row responds nothing, or it ends the UPDATE in IDLE with RESULT as its response, and with `true` only
from the commit of a matching checksum. -/
theorem SequencerRow.responses {s t : State} (h : SequencerRow s t) :
    t.responses = s.responses ∨
      ∃ b, t.responses = s.responses ++ [.updateResult b] ∧ t.result = some b ∧ t.phase = .idle ∧
        (b = true → s.phase = .uCommit ∧ s.frameOK = true) := by
  cases h with
  | timeout => exact .inr ⟨false, rfl, rfl, rfl, nofun⟩
  | commitOK hp hf => exact .inr ⟨true, rfl, rfl, rfl, fun _ => ⟨hp, hf⟩⟩
  | commitBad => exact .inr ⟨false, rfl, rfl, rfl, nofun⟩
  | _ => exact .inl rfl

/-- Settles O48: only the rows that end an UPDATE deliver its response. -/
theorem trueComesOnlyFromAMatchingChecksum : Obligations.TrueComesOnlyFromAMatchingChecksum := by
  intro s t h b hb
  cases step_move h with
  | row h =>
    obtain hsame | ⟨b', hb', hresult, hidle, htrue⟩ := h.responses
    · exact absurd (hsame.symm.trans hb) (by simp)
    · obtain rfl : b' = b := by simpa using hb'.symm.trans hb
      exact ⟨hresult, hidle, htrue⟩
  | construct => exact absurd hb (by simp [State.construct])
  | update => exact absurd hb (by simp [State.acceptUpdate])
  | accessor => exact absurd hb (by simp)
  | raise => exact absurd hb (by simp)

/-! ### Capability calls (10_state.md R40, 00_scope.md R14) -/

/-- From `s` to `t` at most one capability call is made, on the PIN of `t`. -/
def AtMostOneCall (s t : State) : Prop :=
  ∃ es, es.length ≤ 1 ∧ t.events = s.events ++ es ∧ t.calls = s.calls ++ es.map (Event.callAt t.readPin)

theorem AtMostOneCall.none {s t : State} (he : t.events = s.events) (hc : t.calls = s.calls) :
    AtMostOneCall s t :=
  ⟨[], Nat.zero_le 1, by simpa using he, by simpa using hc⟩

theorem AtMostOneCall.one {s t : State} (e : Event) (he : t.events = s.events ++ [e])
    (hc : t.calls = s.calls ++ [e.callAt t.readPin]) : AtMostOneCall s t :=
  ⟨[e], Nat.le_refl 1, he, hc⟩

theorem SequencerRow.atMostOneCall {s t : State} (h : SequencerRow s t) : AtMostOneCall s t := by
  cases h with
  | idle => exact .none rfl rfl
  | timeout => exact .none rfl rfl
  | commitOK => exact .none rfl rfl
  | commitBad => exact .none rfl rfl
  | tick us => exact .one (.evDelay us) rfl rfl
  | wakeMode => exact .one (.evMode .output) rfl rfl
  | wakeDrive => exact .one (.evWrite .low) rfl rfl
  | wakeHold => exact .one (.evDelay wakeUs) rfl rfl
  | relMode => exact .one (.evMode .input) rfl rfl
  | relSettle => exact .one (.evDelay settleUs) rfl rfl
  | _ => exact .one (.evRead s.nextLevel) rfl rfl

theorem Move.atMostOneCall {s t : State} (h : Move s t) : AtMostOneCall s t := by
  cases h with
  | row h => exact h.atMostOneCall
  | construct => exact .one (.evMode .input) rfl rfl
  | update => exact .none rfl rfl
  | accessor => exact .none rfl rfl
  | raise => exact .none rfl rfl

/-- Settles O49: every row and every acceptance makes at most one call. -/
theorem eventsAreOnlyAppended : Obligations.EventsAreOnlyAppended :=
  fun _ _ h => (step_move h).atMostOneCall

end Sys2Proof.Machine

namespace Sys2Proof.Machine

/-! ### The invariant, clause by clause -/

/-- Sign correction never answers the one word that is its own negation (40_host_operations.md R105). -/
theorem signCorrect_ne_min (r : Word16) : signCorrect r ≠ 0x8000#16 := by
  unfold signCorrect
  split
  · intro h
    have hlt : (r.extractLsb' 0 15).toNat < 32768 := BitVec.isLt _
    have hv := congrArg BitVec.toNat h
    simp [neg16] at hv
    omega
  · next hs =>
    rintro rfl
    exact hs (by decide)

/-- Storing the current byte completes the bytes received up to it. -/
theorem frame_set_received {f : Vector (Option Byte) 5} {k : Fin 5} (v : Byte)
    (h : ∀ j : Fin 5, j < k → (f[j]).isSome = true) (j : Fin 5) (hj : j ≤ k) :
    ((f.set k (some v))[j]).isSome = true := by
  obtain hlt | rfl := lt_or_eq_of_le hj
  · have hne : (k : Nat) ≠ j := by omega
    simpa [Vector.getElem_set, hne] using h j hlt
  · simp

theorem Phase.ne_idle_of_polls {p : Phase} (h : p.samples = true ∨ p = .bMeasure) : p ≠ .idle := by
  rintro rfl
  simp [Phase.samples] at h

theorem Phase.drives_of_polls {p : Phase} (h : p.samples = true ∨ p = .bMeasure) : p.drives = false := by
  cases p <;> simp [Phase.samples, Phase.drives] at h ⊢

theorem AtMostOneCall.callsInv {s t : State} (h : AtMostOneCall s t) (hi : s.callsInv) : t.callsInv := by
  obtain ⟨es, _, he, hc⟩ := h
  have hes : (es.map (Event.callAt t.readPin)).map Call.event = es := by
    simp [Function.comp_def, callAt_event]
  rw [State.callsInv, he, hc, List.map_append, hes, show s.events = s.calls.map Call.event from hi]

namespace SequencerRow

variable {s t : State}

theorem handleInv (h : SequencerRow s t) (hi : s.handleInv) : t.handleInv := by
  obtain ⟨hbusy, hpin⟩ := hi
  refine ⟨fun ht => ?_, fun ht => ?_⟩
  · rw [h.handleExists_eq]
    exact hbusy fun hs => ht (h.eq_of_idle hs ▸ hs)
  · rw [h.pin_eq]
    exact hpin (h.handleExists_eq ▸ ht)

/-- Only the two rows that call SetMode write DIR, and they enter and leave the points that drive. -/
theorem dirInv (h : SequencerRow s t) (hi : s.dirInv) : t.dirInv := by
  cases h with
  | wakeMode => exact fun _ => rfl
  | relMode => exact fun _ => rfl
  | idle => exact hi
  | tick => exact hi
  | mismatch => exact hi
  | high => exact hi
  | timeout reason hp =>
    intro hh
    have hdir := hi hh
    rwa [Phase.drives_of_polls hp] at hdir
  | _ =>
    intro hh
    have hdir := hi hh
    simp_all only [Phase.drives]
    exact hdir

theorem latchInv (h : SequencerRow s t) (hi : s.latchInv) : t.latchInv := by
  obtain hsame | ⟨_, hlow, _⟩ := h.outLevel
  · exact fun hh => hi (hsame ▸ hh)
  · simp [State.latchInv, hlow]

theorem cacheInv (h : SequencerRow s t) (hi : s.cacheInv) : t.cacheInv := by
  obtain ⟨hT, hH, hW⟩ | ⟨_, _, hW, hT, hH⟩ := h.cache
  · simpa only [State.cacheInv, hT, hH, hW] using hi
  · simp [State.cacheInv, hT, hH, hW, signCorrect_ne_min]

/-- A counter grows only below its ceiling, and each row that enters a polling point starts its counter. -/
theorem counterInv (h : SequencerRow s t) (hi : s.counterInv) : t.counterInv := by
  obtain ⟨hC, hD, hc, hd⟩ := hi
  cases h with
  | mismatch hp hlt => exact ⟨by simpa using hlt, hD, by simp, hd⟩
  | high hp hlt => exact ⟨hC, by simpa using hlt, hc, by simp⟩
  | _ => simp_all [State.counterInv, Phase.samples, State.startFrame, State.nextBit, State.nextByte,
      State.lastByte, State.writeCache]

/-- The bytes before the current one are received: `nextByte` stores the byte it leaves. -/
theorem frameInv (h : SequencerRow s t) (hi : s.frameInv) : t.frameInv := by
  cases h with
  | nextByte hp ht hlt =>
    obtain ⟨_, _, k, hk, hreceived⟩ := hi.1 (by simp [hp, Phase.inBit])
    rw [readByteIdx_of_some (s := s.afterRead) hk] at hlt
    refine ⟨fun _ => ⟨rfl, rfl, k + 1, ?_, fun j hj => ?_⟩, nofun⟩
    · simp [State.nextByte, readByteIdx_of_some (s := s.afterRead) hk]
    · simp only [State.nextByte, State.enterSampler_frame, readByteIdx_of_some (s := s.afterRead) hk]
      exact frame_set_received _ hreceived j (by omega)
  | lastByte hp ht hlast =>
    obtain ⟨_, _, k, hk, hreceived⟩ := hi.1 (by simp [hp, Phase.inBit])
    rw [readByteIdx_of_some (s := s.afterRead) hk] at hlast
    subst hlast
    exact ⟨nofun, fun _ j => frame_set_received _ hreceived j (by omega)⟩
  | _ => simp_all [State.frameInv, Phase.inBit, State.startFrame, State.nextBit, State.writeCache]

theorem transientInv (h : SequencerRow s t) (hi : s.transientInv) : t.transientInv := by
  cases h with
  | idle => exact hi
  | tick us hp => exact fun h => absurd h (Phase.ne_idle_of_polls hp)
  | mismatch hp => exact fun h => absurd h (Phase.ne_idle_of_polls (.inl hp))
  | high hp => exact fun h => absurd h (Phase.ne_idle_of_polls (.inr hp))
  | timeout => exact fun _ => ⟨rfl, rfl, rfl, rfl, rfl, rfl⟩
  | commitOK => exact fun _ => ⟨rfl, rfl, rfl, rfl, rfl, rfl⟩
  | commitBad => exact fun _ => ⟨rfl, rfl, rfl, rfl, rfl, rfl⟩
  | _ => exact nofun

/-- The indices and ACC are written only by the rows that enter or stay in a bit. -/
theorem scopeInv (h : SequencerRow s t) (hi : s.scopeInv) : t.scopeInv := by
  cases h with
  | idle => exact hi
  | tick => exact hi
  | mismatch => exact hi
  | high => exact hi
  | timeout => exact ⟨fun _ => rfl, fun _ => ⟨rfl, rfl⟩⟩
  | commitOK => exact ⟨fun _ => rfl, fun _ => ⟨rfl, rfl⟩⟩
  | commitBad => exact ⟨fun _ => rfl, fun _ => ⟨rfl, rfl⟩⟩
  | lastByte => exact ⟨fun _ => rfl, nofun⟩
  | ackHigh => exact ⟨nofun, nofun⟩
  | bitLow => exact ⟨nofun, nofun⟩
  | bitHigh => exact ⟨nofun, nofun⟩
  | nextBit => exact ⟨nofun, nofun⟩
  | nextByte => exact ⟨nofun, nofun⟩
  | _ =>
    obtain ⟨hacc, hidx⟩ := hi
    simp_all [State.scopeInv, Phase.inBit, Phase.inFrame]

/-- Only a poll that counted leaves a tick due. -/
theorem tickInv (h : SequencerRow s t) (hi : s.tickInv) : t.tickInv := by
  cases h with
  | mismatch hp => exact fun _ => .inl ⟨hp, _, rfl⟩
  | high hp => exact fun _ => .inr ⟨hp, _, rfl⟩
  | _ => simp_all [State.tickInv, Phase.samples, State.startFrame, State.nextBit, State.nextByte,
      State.lastByte, State.writeCache]

theorem faultInv (h : SequencerRow s t) (hi : s.faultInv) : t.faultInv := by
  rwa [State.faultInv, h.fault_eq]

/-- Every row keeps the invariant. -/
theorem inv (h : SequencerRow s t) (hi : s.Inv) : t.Inv where
  handle := h.handleInv hi.handle
  dir := h.dirInv hi.dir
  latch := h.latchInv hi.latch
  cache := h.cacheInv hi.cache
  counters := h.counterInv hi.counters
  frame := h.frameInv hi.frame
  transient := h.transientInv hi.transient
  scope := h.scopeInv hi.scope
  tick := h.tickInv hi.tick
  calls := h.atMostOneCall.callsInv hi.calls
  faults := h.faultInv hi.faults

end SequencerRow

namespace State.Inv

variable {s : State}

/-- No clause of the invariant is about the host's moves. -/
theorem withHost (h : s.Inv) (rest : List HostMove) : State.Inv { s with host := rest } :=
  ⟨h.handle, h.dir, h.latch, h.cache, h.counters, h.frame, h.transient, h.scope, h.tick, h.calls, h.faults⟩

/-- No clause of the invariant is about the responses. -/
theorem respond (h : s.Inv) (r : Response) : (s.respond r).Inv :=
  ⟨h.handle, h.dir, h.latch, h.cache, h.counters, h.frame, h.transient, h.scope, h.tick, h.calls, h.faults⟩

/-- A fault raised into an empty FAULT is the only one, and nothing else is written. -/
theorem raise (h : s.Inv) (f : ModelFault) (hf : s.fault = []) : (s.raise f).Inv where
  handle := h.handle
  dir := h.dir
  latch := h.latch
  cache := h.cache
  counters := h.counters
  frame := h.frame
  transient := h.transient
  scope := h.scope
  tick := h.tick
  calls := h.calls
  faults := by simp [State.faultInv, hf]

/-- At IDLE no tick is due (log entry 7). -/
theorem tickDue_of_idle (h : s.Inv) (hp : s.phase = .idle) : s.tickDue = false := by
  have ht := h.tick
  by_contra hdue
  simp [State.tickInv, hp, Phase.samples, hdue] at ht

/-- The state right after CONSTRUCT meets the invariant (10_state.md R44). -/
theorem construct (h : s.Inv) (hp : s.phase = .idle) (pin : Byte) : (s.construct pin).Inv where
  handle := ⟨fun hb => absurd rfl hb, fun _ => rfl⟩
  dir := fun _ => rfl
  latch := nofun
  cache := ⟨rfl, rfl, nofun⟩
  counters := ⟨nofun, nofun, nofun, nofun⟩
  frame := ⟨nofun, nofun⟩
  transient := fun _ => ⟨rfl, rfl, rfl, rfl, rfl, rfl⟩
  scope := ⟨fun _ => rfl, fun _ => ⟨rfl, rfl⟩⟩
  tick := fun hd => absurd (hd.symm.trans (h.tickDue_of_idle hp)) nofun
  calls := record_callsInv (s := { s with handleExists := true, pin := some pin, dir := some .input }) _ h.calls
  faults := h.faults

/-- An accepted UPDATE meets the invariant: at IDLE the line is IN and every element of a bit holds no
value. -/
theorem acceptUpdate (h : s.Inv) (hp : s.phase = .idle) (hh : s.handleExists = true) :
    s.acceptUpdate.Inv where
  handle := ⟨fun _ => hh, h.handle.2⟩
  dir := fun _ => by simpa [hp, Phase.drives, State.acceptUpdate] using h.dir hh
  latch := h.latch
  cache := h.cache
  counters := ⟨by simp [State.acceptUpdate], h.counters.2.1, fun _ => rfl, nofun⟩
  frame := ⟨nofun, nofun⟩
  transient := nofun
  scope := by
    obtain ⟨_, hacc, hbyte, hbit, _⟩ := h.transient hp
    exact ⟨fun _ => hacc, fun _ => ⟨hbyte, hbit⟩⟩
  tick := fun hd => absurd (hd.symm.trans (h.tickDue_of_idle hp)) nofun
  calls := h.calls
  faults := h.faults

end State.Inv

/-- Settles O44: each row keeps each clause, and so does what acceptance makes of a word. -/
theorem stepKeepsTheInvariant : Obligations.StepKeepsTheInvariant := by
  intro s t hi h
  cases step_move h with
  | row h => exact h.inv (hi.withHost _)
  | construct pin rest _ _ hp => exact (hi.withHost rest).construct hp pin
  | update rest hp hh => exact (hi.withHost rest).acceptUpdate hp hh
  | accessor rest v => exact (hi.withHost rest).respond _
  | raise rest f hf => exact (hi.withHost rest).raise f hf

/-- Settles O43: at power-on nothing is in flight and no element holds a value. -/
theorem resetMeetsTheInvariant : Obligations.ResetMeetsTheInvariant where
  handle := ⟨fun hb => absurd rfl hb, nofun⟩
  dir := nofun
  latch := nofun
  cache := ⟨rfl, rfl, nofun⟩
  counters := ⟨nofun, nofun, nofun, nofun⟩
  frame := ⟨nofun, nofun⟩
  transient := fun _ => ⟨rfl, rfl, rfl, rfl, rfl, rfl⟩
  scope := ⟨fun _ => rfl, fun _ => ⟨rfl, rfl⟩⟩
  tick := nofun
  calls := rfl
  faults := Nat.zero_le 1

end Sys2Proof.Machine

namespace Sys2Proof.Machine

/-! ### Power-on, and what stops a step -/

/-- Settles O7: the reset state's elements, read off its definition. -/
theorem resetIsThePowerOnState : Obligations.ResetIsThePowerOnState := by
  have hframe : ∀ k : Fin 5, State.reset.frame[k] = none := fun k => by simp [State.reset]
  exact ⟨rfl, rfl, rfl, rfl, rfl, rfl, rfl, rfl, rfl, rfl, hframe, rfl, rfl, rfl, rfl, rfl, rfl, rfl⟩

theorem step_of_fault {s : State} (hp : s.params.wf = true) (hf : s.fault ≠ []) :
    step s = .fault .quiescent :=
  whenRunning_of_fault hp hf

theorem exec_of_fault {s : State} (hp : s.params.wf = true) (hf : s.fault ≠ []) (i : Instr) :
    exec i s = .fault .quiescent := by
  obtain ⟨k, hk⟩ := exists_exec_eq_whenRunning i s
  rw [hk]
  exact whenRunning_of_fault hp hf

/-- Settles O15: every next state is answered by a runnable core, whose FAULT is empty. -/
theorem faultedCoreIsQuiescent : Obligations.FaultedCoreIsQuiescent := by
  refine ⟨rfl, fun s hf => ⟨fun t h => ?_, fun i t h => ?_, fun hp => ?_, ?_⟩⟩
  · exact hf (runnable_iff.mp (step_cases h).1).2
  · exact hf (runnable_iff.mp (exec_cases h).1).2
  · exact ⟨step_of_fault hp hf, exec_of_fault hp hf⟩
  · simp [State.endedSuccessfully, hf]

/-! ### Rows and commands, one equation each -/

/-- Settles O18: a core that accepts commands performs CONSTRUCT whole. -/
theorem constructResetsTheHandle : Obligations.ConstructResetsTheHandle := by
  intro pin s hr
  have hexec : exec (.construct pin) s = .next (s.construct pin) := whenFree_of_ready hr
  rw [hexec]
  rfl

section Rows

variable {s : State}

theorem sequencerStep_idle (hp : s.phase = .idle) : sequencerStep s = s := by
  simp [sequencerStep, hp]

theorem sequencerStep_uIdleWait (hp : s.phase = .uIdleWait) :
    sequencerStep s = samplerStep .high .idleTimeout (State.goto .uWakeMode) s := by
  simp [sequencerStep, hp, stepIdleWait]

theorem sequencerStep_uWakeMode (hp : s.phase = .uWakeMode) :
    sequencerStep s = (s.setMode .output).goto .uWakeDrive := by
  simp [sequencerStep, hp, stepWakeMode]

theorem sequencerStep_uWakeDrive (hp : s.phase = .uWakeDrive) :
    sequencerStep s = (s.lineWrite .low).goto .uWakeHold := by
  simp [sequencerStep, hp, stepWakeDrive]

theorem sequencerStep_uWakeHold (hp : s.phase = .uWakeHold) :
    sequencerStep s = (s.delay wakeUs).goto .uRelMode := by
  simp [sequencerStep, hp, stepWakeHold]

theorem sequencerStep_uRelMode (hp : s.phase = .uRelMode) :
    sequencerStep s = (s.setMode .input).goto .uRelSettle := by
  simp [sequencerStep, hp, stepRelMode]

theorem sequencerStep_uRelSettle (hp : s.phase = .uRelSettle) :
    sequencerStep s = (s.delay settleUs).enterSampler .uAckLow := by
  simp [sequencerStep, hp, stepRelSettle]

theorem sequencerStep_uAckLow (hp : s.phase = .uAckLow) :
    sequencerStep s = samplerStep .low .ackLowTimeout (State.enterSampler .uAckHigh) s := by
  simp [sequencerStep, hp, stepAckLow]

theorem sequencerStep_uAckHigh (hp : s.phase = .uAckHigh) :
    sequencerStep s = samplerStep .high .ackHighTimeout State.startFrame s := by
  simp [sequencerStep, hp, stepAckHigh]

theorem sequencerStep_bLow (hp : s.phase = .bLow) :
    sequencerStep s =
      samplerStep .low (.bitLowTimeout s.readByteIdx s.readBitIdx) (State.enterSampler .bHigh) s := by
  simp [sequencerStep, hp, stepBitLow]

theorem sequencerStep_bHigh (hp : s.phase = .bHigh) :
    sequencerStep s =
      samplerStep .high (.bitHighTimeout s.readByteIdx s.readBitIdx) State.enterMeasure s := by
  simp [sequencerStep, hp, stepBitHigh]

theorem sequencerStep_bMeasure (hp : s.phase = .bMeasure) : sequencerStep s = stepMeasure s := by
  simp [sequencerStep, hp]

theorem sequencerStep_uCommit (hp : s.phase = .uCommit) : sequencerStep s = s.writeCache.deliverResult := by
  simp [sequencerStep, hp, stepCommit]

theorem stepMeasure_tick (ht : s.tickDue = true) : stepMeasure s = s.tick s.params.durationTickUs := by
  simp [stepMeasure, ht]

theorem stepMeasure_high (ht : s.tickDue = false) (hd : s.readD < fineTimeout s.params)
    (hl : s.nextLevel = .high) : stepMeasure s = s.countHigh := by
  simp [stepMeasure, ht, hd, hl]

theorem stepMeasure_timeout (ht : s.tickDue = false) (hd : ¬ s.readD < fineTimeout s.params) :
    stepMeasure s = s.fail (.bitTooLong s.readByteIdx s.readBitIdx) := by
  simp [stepMeasure, ht, hd]

/-- A LOW poll below the fine ceiling ends the bit. -/
theorem stepMeasure_low (ht : s.tickDue = false) (hd : s.readD < fineTimeout s.params)
    (hl : s.nextLevel = .low) : stepMeasure s = s.afterRead.bitDone := by
  simp [stepMeasure, ht, hd, hl]

/-- `nextByte` at a known byte. -/
theorem nextByte_eq {k : Fin 5} (hk : s.readByteIdx = k) :
    s.nextByte = State.enterSampler .bLow
      { s with frame := s.frame.set k (some s.placedAcc), byteIdx := some (k + 1), bitIdx := some 0,
               acc := some 0 } := by
  subst hk
  rfl

/-- A `LineRead` as the call that answered the level `l`. -/
theorem afterRead_eq_performed {l : Level} (hl : s.nextLevel = l) :
    s.afterRead = State.performed [.evRead l] { s with line := s.line.tail, draws := s.draws + 1 } := by
  rw [← hl]
  rfl

/-- Each sampler phase's row is a sampler's with the phase's target. -/
theorem exists_samplerStep_of_target {target : Level}
    (h : (s.phase, target) ∈ [(Phase.uIdleWait, Level.high), (Phase.uAckLow, Level.low),
      (Phase.uAckHigh, Level.high), (Phase.bLow, Level.low), (Phase.bHigh, Level.high)]) :
    ∃ reason exit, sequencerStep s = samplerStep target reason exit s := by
  simp only [List.mem_cons, Prod.mk.injEq, List.not_mem_nil, or_false] at h
  obtain ⟨hp, rfl⟩ | ⟨hp, rfl⟩ | ⟨hp, rfl⟩ | ⟨hp, rfl⟩ | ⟨hp, rfl⟩ := h
  · exact ⟨_, _, sequencerStep_uIdleWait hp⟩
  · exact ⟨_, _, sequencerStep_uAckLow hp⟩
  · exact ⟨_, _, sequencerStep_uAckHigh hp⟩
  · exact ⟨_, _, sequencerStep_bLow hp⟩
  · exact ⟨_, _, sequencerStep_bHigh hp⟩

end Rows

/-- Settles O10: the host presents no word in each of the clauses, and at IDLE the row is the identity. -/
theorem stepTakesTheSequencerRow : Obligations.StepTakesTheSequencerRow := by
  intro s hr
  have hnone (hh : s.host = []) : step s = .next (sequencerStep s) := by
    have hm : hostMove s = (none, s.host) := by simp [hostMove, hh]
    exact step_of_no_word hr hm
  have hdelayed (n w rest) (hh : s.host = .present (n + 1) w :: rest) :
      step s = .next (sequencerStep { s with host := .present n w :: rest }) :=
    step_of_no_word hr (by simp [hostMove, hh])
  refine ⟨hnone, fun w rest hh hp => ?_, hdelayed, fun hp hh => ?_, fun hp n w rest hh => ?_⟩
  · have hm : hostMove s = (none, s.host) := by simp [hostMove, hh, busy_eq_true.mpr hp]
    exact step_of_no_word hr hm
  · rw [hnone hh, sequencerStep_idle hp]
  · exact (hdelayed n w rest hh).trans (congrArg _ (sequencerStep_idle hp))

/-- Settles O23: the poll is the read, and the exit of the phase writes the rest. -/
theorem samplerMatchTakesTheSuccessExit : Obligations.SamplerMatchTakesTheSuccessExit := by
  intro s n ht hc hn
  have hlt : s.readC < s.params.timeout := by rwa [readC_of_some hc]
  refine ⟨fun hp hl => ?_, fun hp hl => ?_, fun hp hl => ?_, fun hp hl => ?_, fun hp hl => ?_⟩
  · rw [sequencerStep_uIdleWait hp, samplerStep_match ht hlt hl, afterRead_eq_performed hl]
    rfl
  · rw [sequencerStep_uAckLow hp, samplerStep_match ht hlt hl, afterRead_eq_performed hl]
    rfl
  · rw [sequencerStep_uAckHigh hp, samplerStep_match ht hlt hl, afterRead_eq_performed hl]
    rfl
  · rw [sequencerStep_bLow hp, samplerStep_match ht hlt hl, afterRead_eq_performed hl]
    rfl
  · rw [sequencerStep_bHigh hp, samplerStep_match ht hlt hl, afterRead_eq_performed hl]
    rfl

/-- Settles O24: the first of the two steps is the counted read and the second the tick that it left due. -/
theorem samplerMismatchCountsAndDelays : Obligations.SamplerMismatchCountsAndDelays := by
  intro s target hrow
  have htick {u : State} (hu : u.phase = s.phase) (hdue : u.tickDue = true) :
      sequencerStep u = u.tick u.params.samplerTickUs := by
    obtain ⟨_, _, e⟩ := exists_samplerStep_of_target (s := u) (hu ▸ hrow)
    rw [e, samplerStep_tick hdue]
  refine ⟨fun hdue => htick rfl hdue, fun n ht hc hn hl => ?_⟩
  have hread : sequencerStep s = s.countPoll := by
    obtain ⟨_, _, e⟩ := exists_samplerStep_of_target hrow
    rw [e, samplerStep_mismatch ht (by rwa [readC_of_some hc]) hl]
  have hcount : s.countPoll = State.performed [.evRead s.nextLevel]
      { s with line := s.line.tail, draws := s.draws + 1, c := some (n + 1), tickDue := true } := by
    rw [← readC_of_some hc]
    rfl
  refine ⟨hread.trans hcount, ?_⟩
  rw [hread, htick (u := s.countPoll) rfl rfl, hcount]
  refine Eq.trans ?_ (performed_performed [.evRead s.nextLevel] [.evDelay s.params.samplerTickUs] _)
  cases s
  cases ht
  rfl

/-- Settles O25: at the ceiling the sampler's row is its phase's failure. -/
theorem samplerTimeoutFailsWithItsReason : Obligations.SamplerTimeoutFailsWithItsReason := by
  intro s ht hc
  have hge : ¬ s.readC < s.params.timeout := by simp [readC_of_some hc]
  refine ⟨fun hp => ?_, fun hp => ?_, fun hp => ?_, fun k i hk hi => ⟨fun hp => ?_, fun hp => ?_⟩⟩
  · rw [sequencerStep_uIdleWait hp, samplerStep_timeout ht hge]
  · rw [sequencerStep_uAckLow hp, samplerStep_timeout ht hge]
  · rw [sequencerStep_uAckHigh hp, samplerStep_timeout ht hge]
  · rw [sequencerStep_bLow hp, samplerStep_timeout ht hge, readByteIdx_of_some hk, readBitIdx_of_some hi]
  · rw [sequencerStep_bHigh hp, samplerStep_timeout ht hge, readByteIdx_of_some hk, readBitIdx_of_some hi]

/-- Settles O31: the place of the bit decides which of the three rows the LOW poll is. -/
theorem lowPollEndsTheBit : Obligations.LowPollEndsTheBit := by
  intro s n a k i hp ht hd hn hl ha hk hi
  have hrow : sequencerStep s = s.afterRead.bitDone := by
    rw [sequencerStep_bMeasure hp, stepMeasure_low ht (by rwa [readD_of_some hd]) hl]
  have hbit : s.afterRead.readBitIdx = i := readBitIdx_of_some (s := s.afterRead) hi
  have hbyte : s.afterRead.readByteIdx = k := readByteIdx_of_some (s := s.afterRead) hk
  have hplaced : s.afterRead.placedAcc = setBit a (7 - i.val) (decide (3 < n)) := by
    rw [State.placedAcc, hbit, readAcc_of_some (s := s.afterRead) ha, readD_of_some (s := s.afterRead) hd]
    rfl
  rw [hrow]
  refine ⟨fun h7 => ?_, fun h7 h4 => ?_, fun h7 h4 => ?_⟩
  · rw [State.bitDone, hbit, if_pos h7, State.nextBit, hplaced, hbit, ← hl]
    rfl
  · subst h7
    rw [State.bitDone, hbit, hbyte, if_neg (by decide), if_pos h4, nextByte_eq hbyte, hplaced, ← hl]
    rfl
  · subst h7 h4
    rw [State.bitDone, hbit, hbyte, if_neg (by decide), if_neg (by decide), State.lastByte, hplaced, ← hl]
    rfl

end Sys2Proof.Machine

namespace Sys2Proof.Machine

/-! ### What a step reads (10_state.md R22, R25, R36, R37, R40)

A step is the same on a state and on its blotted copy, up to the blotted elements, as long as both read the
same level. Two states with one blotted copy then take the same step. -/

/-- The blotting of the statement, with or without PIN. -/
def State.blot : Bool → State → State
  | false => State.unread
  | true => State.unreadPin

section Blot

variable (p : Bool) (s : State)

@[simp] theorem blot_blot : (s.blot p).blot p = s.blot p := by cases p <;> rfl
@[simp] theorem blot_phase : (s.blot p).phase = s.phase := by cases p <;> rfl
@[simp] theorem blot_params : (s.blot p).params = s.params := by cases p <;> rfl
@[simp] theorem blot_fault : (s.blot p).fault = s.fault := by cases p <;> rfl
@[simp] theorem blot_tickDue : (s.blot p).tickDue = s.tickDue := by cases p <;> rfl
@[simp] theorem blot_line : (s.blot p).line = s.line := by cases p <;> rfl
@[simp] theorem blot_handleExists : (s.blot p).handleExists = s.handleExists := by cases p <;> rfl
@[simp] theorem blot_cacheWritten : (s.blot p).cacheWritten = s.cacheWritten := by cases p <;> rfl
@[simp] theorem blot_busy : (s.blot p).busy = s.busy := by cases p <;> rfl
@[simp] theorem blot_readC : (s.blot p).readC = s.readC := by cases p <;> rfl
@[simp] theorem blot_readD : (s.blot p).readD = s.readD := by cases p <;> rfl
@[simp] theorem blot_readByteIdx : (s.blot p).readByteIdx = s.readByteIdx := by cases p <;> rfl
@[simp] theorem blot_readBitIdx : (s.blot p).readBitIdx = s.readBitIdx := by cases p <;> rfl
@[simp] theorem blot_readCacheT : (s.blot p).readCacheT = s.readCacheT := by cases p <;> rfl
@[simp] theorem blot_readCacheH : (s.blot p).readCacheH = s.readCacheH := by cases p <;> rfl
@[simp] theorem hostMove_blot : hostMove (s.blot p) = hostMove s := by cases p <;> rfl

theorem blot_withHost (rest : List HostMove) :
    { s.blot p with host := rest } = State.blot p { s with host := rest } := by cases p <;> rfl

/-- The listed level is read whatever the pin; the free draw is the pin's (log entry 3). -/
theorem nextLevel_blot (h : p = false ∨ s.line ≠ []) : (s.blot p).nextLevel = s.nextLevel := by
  obtain rfl | hl := h
  · rfl
  · obtain ⟨l, ls, hl⟩ := List.exists_cons_of_ne_nil hl
    cases p <;> simp [State.nextLevel, State.blot, State.unreadPin, State.unread, hl]

theorem fail_blot (r : Abort) : ((s.blot p).fail r).blot p = (s.fail r).blot p := by cases p <;> rfl

theorem raise_blot (f : ModelFault) :
    mapOutcome (State.blot p) (.next ((s.blot p).raise f)) = mapOutcome (State.blot p) (.next (s.raise f)) := by
  cases p <;> rfl

theorem bitDone_blot : (s.blot p).afterRead.bitDone.blot p = s.afterRead.bitDone.blot p := by
  have hbit : (s.blot p).afterRead.readBitIdx = s.afterRead.readBitIdx := by cases p <;> rfl
  have hbyte : (s.blot p).afterRead.readByteIdx = s.afterRead.readByteIdx := by cases p <;> rfl
  unfold State.bitDone
  rw [hbit, hbyte]
  split_ifs
  · cases p <;> rfl
  · cases p <;> rfl
  · cases p <;> rfl

theorem deliverResult_blot : (s.blot p).writeCache.deliverResult.blot p = s.writeCache.deliverResult.blot p := by
  have hok : (s.blot p).writeCache.frameOK = s.writeCache.frameOK := by cases p <;> rfl
  unfold State.deliverResult
  rw [hok]
  split_ifs
  · cases p <;> rfl
  · cases p <;> rfl

variable {p s}

/-- A sampler's row decides by the tick, the counter and the level, and by nothing blotted. -/
theorem samplerStep_blot {target : Level} {reason : Abort} {exit : State → State}
    (hl : (s.blot p).nextLevel = s.nextLevel)
    (hexit : (exit (s.blot p).afterRead).blot p = (exit s.afterRead).blot p) :
    (samplerStep target reason exit (s.blot p)).blot p = (samplerStep target reason exit s).blot p := by
  unfold samplerStep
  rw [blot_tickDue, blot_readC, blot_params, hl]
  split_ifs
  · cases p <;> rfl
  · exact hexit
  · cases p <;> rfl
  · exact fail_blot p s reason

theorem stepMeasure_blot (hl : (s.blot p).nextLevel = s.nextLevel) :
    (stepMeasure (s.blot p)).blot p = (stepMeasure s).blot p := by
  unfold stepMeasure
  rw [blot_tickDue, blot_readD, blot_params, hl, blot_readByteIdx, blot_readBitIdx]
  split_ifs
  · cases p <;> rfl
  · split
    · cases p <;> rfl
    · exact bitDone_blot p s
  · exact fail_blot p s _

theorem sequencerStep_blot (hl : (s.blot p).nextLevel = s.nextLevel) :
    (sequencerStep (s.blot p)).blot p = (sequencerStep s).blot p := by
  unfold sequencerStep
  rw [blot_phase]
  split
  · exact blot_blot p s
  · exact samplerStep_blot hl (by cases p <;> rfl)
  · cases p <;> rfl
  · cases p <;> rfl
  · cases p <;> rfl
  · cases p <;> rfl
  · cases p <;> rfl
  · exact samplerStep_blot hl (by cases p <;> rfl)
  · exact samplerStep_blot hl (by cases p <;> rfl)
  · rw [stepBitLow, blot_readByteIdx, blot_readBitIdx]
    exact samplerStep_blot hl (by cases p <;> rfl)
  · rw [stepBitHigh, blot_readByteIdx, blot_readBitIdx]
    exact samplerStep_blot hl (by cases p <;> rfl)
  · exact stepMeasure_blot hl
  · exact deliverResult_blot p s

/-! The checks of dispatch read only the configuration, FAULT, PHASE and HANDLE_EXISTS. -/

theorem whenRunning_blot {k k' : Outcome} (h : mapOutcome (State.blot p) k' = mapOutcome (State.blot p) k) :
    mapOutcome (State.blot p) (whenRunning (s.blot p) k') = mapOutcome (State.blot p) (whenRunning s k) := by
  unfold whenRunning
  rw [blot_params, blot_fault]
  split_ifs
  · rfl
  · rfl
  · exact h

theorem whenFree_blot {w : Word16} {k k' : Outcome}
    (h : mapOutcome (State.blot p) k' = mapOutcome (State.blot p) k) :
    mapOutcome (State.blot p) (whenFree w (s.blot p) k') = mapOutcome (State.blot p) (whenFree w s k) := by
  refine whenRunning_blot ?_
  rw [blot_busy]
  split_ifs
  · exact raise_blot p s _
  · exact h

theorem withHandle_blot {w : Word16} {k k' : Outcome}
    (h : mapOutcome (State.blot p) k' = mapOutcome (State.blot p) k) :
    mapOutcome (State.blot p) (withHandle w (s.blot p) k') = mapOutcome (State.blot p) (withHandle w s k) := by
  unfold withHandle
  rw [blot_handleExists]
  split_ifs
  · exact h
  · exact raise_blot p s _

theorem readCache_blot {a : Accessor} {v : Word16} :
    mapOutcome (State.blot p) (readCache a v (s.blot p)) = mapOutcome (State.blot p) (readCache a v s) := by
  unfold readCache
  rw [blot_cacheWritten]
  split_ifs
  · cases p <;> rfl
  · exact raise_blot p s _

theorem exec_blot (i : Instr) :
    mapOutcome (State.blot p) (exec i (s.blot p)) = mapOutcome (State.blot p) (exec i s) := by
  cases i with
  | construct pin => exact whenFree_blot (by cases p <;> rfl)
  | update => exact whenFree_blot (withHandle_blot (by cases p <;> rfl))
  | lastT =>
    refine whenFree_blot (withHandle_blot ?_)
    rw [blot_readCacheT]
    exact readCache_blot
  | lastH =>
    refine whenFree_blot (withHandle_blot ?_)
    rw [blot_readCacheH]
    exact readCache_blot

theorem accept_blot (w : Word16) :
    mapOutcome (State.blot p) (accept w (s.blot p)) = mapOutcome (State.blot p) (accept w s) := by
  unfold accept
  split
  · exact exec_blot _
  · exact whenFree_blot (raise_blot p s _)

/-- A step on the blotted copy is the step, up to what is blotted. -/
theorem step_blot (hl : (s.blot p).nextLevel = s.nextLevel) :
    mapOutcome (State.blot p) (step (s.blot p)) = mapOutcome (State.blot p) (step s) := by
  refine whenRunning_blot ?_
  unfold advance
  rw [hostMove_blot]
  split
  · rw [blot_withHost]
    exact accept_blot _
  · rw [blot_withHost]
    exact congrArg Host.Outcome.next (sequencerStep_blot (by rw [← blot_withHost]; exact hl))

end Blot

/-- Two states with one blotted copy take the same step up to what is blotted. -/
theorem step_eq_of_blot_eq {p : Bool} {s t : State} (h : s.blot p = t.blot p)
    (hl : p = false ∨ s.line ≠ []) :
    mapOutcome (State.blot p) (step s) = mapOutcome (State.blot p) (step t) := by
  have hline : s.line = t.line := by simpa using congrArg State.line h
  rw [← step_blot (nextLevel_blot p s hl), h, step_blot (nextLevel_blot p t (hline ▸ hl))]

/-- Settles O45: blotting commutes with the step, without PIN always and with PIN while a level is listed. -/
theorem stepNeverReadsTheWriteOnlyElements : Obligations.StepNeverReadsTheWriteOnlyElements :=
  fun _ _ => ⟨fun h => step_eq_of_blot_eq (p := false) h (.inl rfl),
    fun h hl => step_eq_of_blot_eq (p := true) h (.inr hl)⟩

end Sys2Proof.Machine

namespace Sys2Proof.Machine

/-! ### The steps of an UPDATE and the rules' pseudocode

`Runs` relates the steps of the machine to a procedure of the pseudocode: where the procedure succeeds, they
lead to the exit of its last row, and where it fails, to the end of the UPDATE. The relation composes as the
pseudocode does, so each procedure is proved from the ones it calls. -/

/-- At most `b` steps lead from `s` to `t`. -/
def Reaches (b : Nat) (s t : State) : Prop := ∃ m, m ≤ b ∧ run m s = .next t

theorem Reaches.refl (s : State) : Reaches 0 s s := ⟨0, Nat.le_refl 0, rfl⟩

theorem Reaches.of_step {b : Nat} {s s' t : State} (h : step s = .next s') (ht : Reaches b s' t) :
    Reaches (b + 1) s t := by
  obtain ⟨m, hm, hrun⟩ := ht
  exact ⟨m + 1, by omega, by rw [run_succ h, hrun]⟩

theorem Reaches.trans {a b : Nat} {s t u : State} (h : Reaches a s t) (h' : Reaches b t u) :
    Reaches (a + b) s u := by
  obtain ⟨m, hm, hrun⟩ := h
  obtain ⟨n, hn, hrun'⟩ := h'
  exact ⟨m + n, by omega, by rw [run_add hrun, hrun']⟩

theorem Reaches.mono {a b : Nat} {s t : State} (h : Reaches a s t) (hab : a ≤ b) : Reaches b s t := by
  obtain ⟨m, hm, hrun⟩ := h
  exact ⟨m, by omega, hrun⟩

/-- The core may step, its host keeps R108 and no tick is due; `p`, `k` and `i` are what the configuration
and the indices hold. Every procedure of UPDATE starts and ends here. -/
structure InFlight (p : Parameters) (k : Option (Fin 5)) (i : Option (Fin 8)) (s : State) : Prop where
  runnable : s.runnable = true
  disciplined : s.disciplined = true
  tickDue : s.tickDue = false
  params : s.params = p
  byteIdx : s.byteIdx = k
  bitIdx : s.bitIdx = i

section InFlight

variable {p : Parameters} {k : Option (Fin 5)} {i : Option (Fin 8)} {s t : State}

/-- What an update of other fields keeps. -/
theorem InFlight.congr (h : InFlight p k i s) (hparams : t.params = s.params) (hfault : t.fault = s.fault)
    (hhost : t.host = s.host) (htick : t.tickDue = s.tickDue) (hbyte : t.byteIdx = s.byteIdx)
    (hbit : t.bitIdx = s.bitIdx) : InFlight p k i t where
  runnable := runnable_congr hparams hfault ▸ h.runnable
  disciplined := disciplined_congr hhost ▸ h.disciplined
  tickDue := htick ▸ h.tickDue
  params := hparams ▸ h.params
  byteIdx := hbyte ▸ h.byteIdx
  bitIdx := hbit ▸ h.bitIdx

/-- While a command is in flight the next step is the sequencer's. -/
theorem InFlight.reaches_succ {b : Nat} (h : InFlight p k i s) (hb : s.phase ≠ .idle)
    (ht : Reaches b (sequencerStep s) t) : Reaches (b + 1) s t :=
  .of_step (step_in_flight h.runnable h.disciplined hb) ht

theorem InFlight.afterRead (h : InFlight p k i s) : InFlight p k i s.afterRead :=
  h.congr rfl rfl rfl rfl rfl rfl

theorem InFlight.goto (h : InFlight p k i s) (ph : Phase) : InFlight p k i (s.goto ph) :=
  h.congr rfl rfl rfl rfl rfl rfl

theorem InFlight.setMode (h : InFlight p k i s) (m : Mode) : InFlight p k i (s.setMode m) :=
  h.congr rfl rfl rfl rfl rfl rfl

theorem InFlight.lineWrite (h : InFlight p k i s) (l : Level) : InFlight p k i (s.lineWrite l) :=
  h.congr rfl rfl rfl rfl rfl rfl

theorem InFlight.delay (h : InFlight p k i s) (us : Nat) : InFlight p k i (s.delay us) :=
  h.congr rfl rfl rfl rfl rfl rfl

theorem InFlight.enterSampler (h : InFlight p k i s) (ph : Phase) : InFlight p k i (s.enterSampler ph) :=
  h.congr rfl rfl rfl rfl rfl rfl

theorem InFlight.enterMeasure (h : InFlight p k i s) : InFlight p k i s.enterMeasure :=
  h.congr rfl rfl rfl rfl rfl rfl

/-- A poll and its tick together leave what the next poll needs. -/
theorem InFlight.pollTick (h : InFlight p k i s) : InFlight p k i s.pollTick where
  runnable := by simpa using h.runnable
  disciplined := by simpa using h.disciplined
  tickDue := by simp
  params := by simpa using h.params
  byteIdx := by simpa using h.byteIdx
  bitIdx := by simpa using h.bitIdx

theorem InFlight.highTick (h : InFlight p k i s) : InFlight p k i s.highTick where
  runnable := by simpa using h.runnable
  disciplined := by simpa using h.disciplined
  tickDue := by simp
  params := by simpa using h.params
  byteIdx := by simpa using h.byteIdx
  bitIdx := by simpa using h.bitIdx

end InFlight

/-- From `s` the steps run a procedure that answers `r`: within `b` steps to the exit state of a success,
for which `Q` holds, or within `b + 1` to the end of the UPDATE that a failure is. -/
def Runs (b : Nat) (s : State) (r : Bool × State) (Q : State → Prop) (exit : State → State) : Prop :=
  match r with
  | (true, u) => Q u ∧ Reaches b s (exit u)
  | (false, u) => Reaches (b + 1) s (u.finish false)

/-- One procedure after another, the first failure ending both (41_line_controller.md R126). -/
def andThen (r : Bool × State) (next : State → Bool × State) : Bool × State :=
  match r with
  | (true, u) => next u
  | (false, u) => (false, u)

/-- A wait whose failure is recorded under `reason`. -/
def orFail (reason : State → Abort) (r : Bool × State) : Bool × State :=
  match r with
  | (true, u) => (true, u)
  | (false, u) => failing (reason u) u

@[simp] theorem andThen_true (u : State) (next : State → Bool × State) : andThen (true, u) next = next u := rfl
@[simp] theorem andThen_false (u : State) (next : State → Bool × State) : andThen (false, u) next = (false, u) := rfl
@[simp] theorem orFail_true (reason : State → Abort) (u : State) : orFail reason (true, u) = (true, u) := rfl
@[simp] theorem orFail_false (reason : State → Abort) (u : State) :
    orFail reason (false, u) = failing (reason u) u := rfl

section Runs

variable {a b : Nat} {s s' : State} {r : Bool × State} {Q Q' : State → Prop} {exit exit' : State → State}

theorem Runs.mono (h : Runs a s r Q exit) (hab : a ≤ b) : Runs b s r Q exit := by
  obtain ⟨_ | _, u⟩ := r
  · exact Reaches.mono h (by omega)
  · exact ⟨h.1, h.2.mono hab⟩

/-- Steps before a procedure count towards it. -/
theorem Runs.of_reaches (h : Reaches a s s') (hr : Runs b s' r Q exit) : Runs (a + b) s r Q exit := by
  obtain ⟨_ | _, u⟩ := r
  · exact (h.trans hr).mono (by omega)
  · exact ⟨hr.1, h.trans hr.2⟩

theorem Runs.andThen {next : State → Bool × State} (h : Runs a s r Q exit)
    (hnext : ∀ u, Q u → Runs b (exit u) (next u) Q' exit') : Runs (a + b) s (andThen r next) Q' exit' := by
  obtain ⟨_ | _, u⟩ := r
  · exact Reaches.mono h (by omega)
  · exact .of_reaches h.2 (hnext u h.1)

end Runs

/-! #### The two loops -/

section Loops

variable {p : Parameters} {k : Option (Fin 5)} {s : State}

/-- The steps at a sampler phase run the loop of `WaitForPin` (42_sampler.md R140). -/
theorem runs_waitLoop {i : Option (Fin 8)} {ph : Phase} {target : Level} {reason : State → Abort}
    {exit : State → State} (hb : ph ≠ .idle)
    (hrow : ∀ s, s.phase = ph → s.bitIdx = i → sequencerStep s = samplerStep target (reason s) exit s)
    (n : Nat) (h : InFlight p k i s) (hs : s.phase = ph) (hc : s.readC + n = s.params.timeout) :
    Runs (2 * n) s (orFail reason (waitLoop target n s)) (InFlight p k i) exit := by
  induction n generalizing s with
  | zero =>
    refine h.reaches_succ (hs ▸ hb) ?_
    rw [hrow s hs h.bitIdx, samplerStep_timeout h.tickDue (by omega)]
    exact .refl _
  | succ n ih =>
    have hrow' := hrow s hs h.bitIdx
    by_cases hl : s.nextLevel = target
    · rw [waitLoop_match hl]
      refine ⟨h.afterRead, (h.reaches_succ (b := 0) (hs ▸ hb) ?_).mono (by omega)⟩
      rw [hrow', samplerStep_match h.tickDue (by omega) hl]
      exact .refl _
    · rw [waitLoop_mismatch h.tickDue hl]
      have hpoll : Reaches 2 s s.pollTick := by
        refine h.reaches_succ (hs ▸ hb) ?_
        rw [hrow', samplerStep_mismatch h.tickDue (by omega) hl]
        refine .of_step (step_in_flight (by simpa using h.runnable) (by simpa using h.disciplined)
          (by simpa [hs] using hb)) ?_
        rw [hrow s.countPoll hs h.bitIdx, samplerStep_tick rfl]
        exact .refl _
      have hcount : s.pollTick.readC + n = s.pollTick.params.timeout := by
        rw [readC_of_some (s := s.pollTick) (n := s.readC + 1) (by simp)]
        simp only [State.tick_params, State.countPoll_params]
        omega
      exact (Runs.of_reaches hpoll (ih h.pollTick (by simpa using hs) hcount)).mono (by omega)

/-- What `ReadByte` makes of a measurement at index `i`: the bit placed in ACC, or its failure
(43_bit_decoder.md R164). -/
def placed (i : Fin 8) (r : Option Nat × State) : Bool × State :=
  match r with
  | (some n, u) => (true, { u with acc := some (setBit u.readAcc (bitPosition i) (classify n)) })
  | (none, u) => failing (.bitTooLong u.readByteIdx i) u

/-- The state at the first bit of byte `k`. -/
def State.startByte (k : Fin 5) (s : State) : State :=
  State.enterSampler .bLow { s with byteIdx := some k, acc := some 0, bitIdx := some 0 }

/-- What `FrameDecode` writes once byte `k` is in ACC (44_frame_decoder.md R180, 10_state.md R30). -/
def State.storeByte (k : Fin 5) (s : State) : State :=
  { s with frame := s.frame.set k (some s.readAcc), acc := none }

/-- Where a bit's last row leads once the bit is placed in ACC (10_state.md R35). -/
def State.afterBit (u : State) : State :=
  if u.readBitIdx < 7 then State.enterSampler .bLow { u with bitIdx := some (u.readBitIdx + 1) }
  else if u.readByteIdx < 4 then (u.storeByte u.readByteIdx).startByte (u.readByteIdx + 1)
  else (u.storeByte 4).goto .uCommit

theorem bitDone_eq_afterBit (s : State) : s.bitDone = State.afterBit { s with acc := some s.placedAcc } := by
  by_cases hb : s.readBitIdx < 7
  · rw [State.bitDone, if_pos hb]
    exact (if_pos hb).symm
  · rw [State.bitDone, if_neg hb]
    refine Eq.trans ?_ (if_neg hb).symm
    by_cases hk : s.readByteIdx < 4
    · rw [if_pos hk]
      exact (if_pos hk).symm
    · rw [if_neg hk]
      exact (if_neg hk).symm

/-- The steps at `B_MEASURE` run the loop of `MeasureHigh` (43_bit_decoder.md R160). -/
theorem runs_measureLoop {i : Fin 8} (n q : Nat) (h : InFlight p k (some i) s) (hs : s.phase = .bMeasure)
    (hd : s.d = some q) (hc : q + n = fineTimeout s.params) :
    Runs (2 * n) s (placed i (measureLoop n s)) (InFlight p k (some i)) State.afterBit := by
  induction n generalizing s q with
  | zero =>
    refine h.reaches_succ (by simp [hs]) ?_
    rw [sequencerStep_bMeasure hs, stepMeasure_timeout h.tickDue (by rw [readD_of_some hd]; omega),
      readBitIdx_of_some h.bitIdx]
    exact .refl _
  | succ n ih =>
    have hlt : s.readD < fineTimeout s.params := by rw [readD_of_some hd]; omega
    have hb : s.phase ≠ .idle := by simp [hs]
    cases hl : s.nextLevel with
    | low =>
      rw [measureLoop_low hl]
      have hacc : setBit s.afterRead.readAcc (bitPosition i) (classify s.readD) = s.afterRead.placedAcc := by
        rw [State.placedAcc, readBitIdx_of_some (s := s.afterRead) h.bitIdx, readD_of_some hd,
          readD_of_some (s := s.afterRead) hd]
      refine ⟨h.afterRead.congr rfl rfl rfl rfl rfl rfl, (h.reaches_succ (b := 0) hb ?_).mono (by omega)⟩
      rw [sequencerStep_bMeasure hs, stepMeasure_low h.tickDue hlt hl, bitDone_eq_afterBit, hacc]
      exact .refl _
    | high =>
      rw [measureLoop_high h.tickDue hl]
      have hpoll : Reaches 2 s s.highTick := by
        refine h.reaches_succ hb ?_
        rw [sequencerStep_bMeasure hs, stepMeasure_high h.tickDue hlt hl]
        refine .of_step (step_in_flight (by simpa using h.runnable) (by simpa using h.disciplined)
          (by simpa using hb)) ?_
        rw [sequencerStep_bMeasure (s := s.countHigh) hs, stepMeasure_tick rfl]
        exact .refl _
      have hcount : s.highTick.d = some (q + 1) := by simp [readD_of_some hd]
      have hceiling : (q + 1) + n = fineTimeout s.highTick.params := by
        simp only [State.tick_params, State.countHigh_params]
        omega
      exact (Runs.of_reaches hpoll (ih (q + 1) h.highTick (by simpa using hs) hcount hceiling)).mono (by omega)

/-- A call of `WaitForPin` that starts at phase `ph` with its counter at 0. -/
theorem runs_waitForPin {i : Option (Fin 8)} {ph : Phase} {target : Level} {reason : State → Abort}
    {exit : State → State} (hb : ph ≠ .idle)
    (hrow : ∀ s, s.phase = ph → s.bitIdx = i → sequencerStep s = samplerStep target (reason s) exit s)
    (h : InFlight p k i s) :
    Runs (2 * p.timeout) (s.enterSampler ph) (orFail reason (waitForPin target (s.goto ph))) (InFlight p k i)
      exit := by
  obtain rfl := h.params
  exact runs_waitLoop hb hrow s.params.timeout (h.enterSampler ph) rfl (Nat.zero_add _)

/-- A call of `MeasureHigh`, for the bit at index `i`. -/
theorem runs_measureHigh {i : Fin 8} (h : InFlight p k (some i) s) :
    Runs (2 * fineTimeout p) s.enterMeasure (placed i (measureHigh (s.goto .bMeasure))) (InFlight p k (some i))
      State.afterBit := by
  obtain rfl := h.params
  exact runs_measureLoop (fineTimeout s.params) 0 h.enterMeasure rfl rfl (Nat.zero_add _)

end Loops

/-! #### Bits and bytes (43_bit_decoder.md R164, 44_frame_decoder.md R180) -/

section Frame

variable {p : Parameters} {k : Fin 5} {s : State}

/-- Twice the polls of one bit: its two waits and its measurement. -/
def bitSteps (p : Parameters) : Nat := 2 * p.timeout + (2 * p.timeout + 2 * fineTimeout p)

theorem readBit_eq (i : Fin 8) (s : State) :
    readBit i s =
      andThen (orFail (fun u => .bitLowTimeout u.readByteIdx i)
        (waitForPin .low ({ s with bitIdx := some i }.goto .bLow))) fun s1 =>
      andThen (orFail (fun u => .bitHighTimeout u.readByteIdx i) (waitForPin .high (s1.goto .bHigh))) fun s2 =>
      placed i (measureHigh (s2.goto .bMeasure)) := by
  unfold readBit
  split
  · next s1 h1 => simp [h1, failing]
  · next s1 h1 =>
    split
    · next s2 h2 => simp [h1, h2, failing]
    · next s2 h2 =>
      split
      · next s3 h3 => simp [h1, h2, h3, placed]
      · next n s3 h3 => simp [h1, h2, h3, placed]

theorem runs_readBit {i : Fin 8} (h : InFlight p (some k) (some i) { s with bitIdx := some i }) :
    Runs (bitSteps p) (State.enterSampler .bLow { s with bitIdx := some i }) (readBit i s)
      (InFlight p (some k) (some i)) State.afterBit := by
  rw [readBit_eq]
  refine (runs_waitForPin (ph := .bLow) nofun (fun u hu hi => ?_) h).andThen fun s1 h1 =>
    (runs_waitForPin (ph := .bHigh) nofun (fun u hu hi => ?_) h1).andThen fun s2 h2 => runs_measureHigh h2
  · rw [sequencerStep_bLow hu, readBitIdx_of_some hi]
  · rw [sequencerStep_bHigh hu, readBitIdx_of_some hi]

/-- The indices `i` and then those of the list are the consecutive ones up to `last`. -/
def UpTo {n : Nat} [NeZero n] (last : Fin n) : Fin n → List (Fin n) → Prop
  | i, [] => i = last
  | i, j :: js => i < last ∧ j = i + 1 ∧ UpTo last j js

theorem readBits_cons (i : Fin 8) (is : List (Fin 8)) (s : State) :
    readBits (i :: is) s = andThen (readBit i s) (readBits is) := by
  rw [readBits]
  split
  · next u h => simp [h]
  · next u h => simp [h]

/-- `ReadByte` from index `i` on, every bit being received where the one before it ended. -/
theorem runs_readBits (is : List (Fin 8)) (i : Fin 8) (hlast : UpTo 7 i is)
    (h : InFlight p (some k) (some i) { s with bitIdx := some i }) :
    Runs ((is.length + 1) * bitSteps p) (State.enterSampler .bLow { s with bitIdx := some i })
      (readBits (i :: is) s) (InFlight p (some k) (some 7)) State.afterBit := by
  rw [readBits_cons, Nat.add_comm is.length, Nat.add_mul, Nat.one_mul]
  refine (runs_readBit h).andThen fun u hu => ?_
  induction is generalizing s i u with
  | nil =>
    obtain rfl : i = 7 := hlast
    exact ⟨hu, (Reaches.refl _).mono (Nat.zero_le _)⟩
  | cons j js ih =>
    obtain ⟨hi, rfl, hlast⟩ := hlast
    have hnext : u.afterBit = State.enterSampler .bLow { u with bitIdx := some (i + 1) } := by
      rw [State.afterBit, readBitIdx_of_some hu.bitIdx, if_pos hi]
    have hu' : InFlight p (some k) (some (i + 1)) { u with bitIdx := some (i + 1) } :=
      ⟨hu.runnable, hu.disciplined, hu.tickDue, hu.params, hu.byteIdx, rfl⟩
    rw [readBits_cons, hnext, List.length_cons, Nat.add_comm js.length, Nat.add_mul, Nat.one_mul]
    exact (runs_readBit hu').andThen fun v hv => ih (i + 1) hlast hu' v hv

theorem runs_readByte {k' : Option (Fin 5)} {i' : Option (Fin 8)} (h : InFlight p k' i' s) :
    Runs (8 * bitSteps p) (s.startByte k) (readByte { s with byteIdx := some k })
      (InFlight p (some k) (some 7)) State.afterBit :=
  runs_readBits (s := { s with byteIdx := some k, acc := some 0 }) [1, 2, 3, 4, 5, 6, 7] 0 (by simp [UpTo])
    ⟨h.runnable, h.disciplined, h.tickDue, h.params, rfl, rfl⟩

theorem readBytes_cons (k : Fin 5) (ks : List (Fin 5)) (s : State) :
    readBytes (k :: ks) s =
      andThen (readByte { s with byteIdx := some k }) fun u => readBytes ks (u.storeByte k) := by
  rw [readBytes]
  split
  · next u h => simp [h]
  · next u h => simp [h, State.storeByte]

/-- After the last bit of a byte that is not the frame's last the next byte starts. -/
theorem afterBit_of_lt {u : State} (hi : u.bitIdx = some 7) (hk : u.byteIdx = some k) (hlt : k < 4) :
    u.afterBit = (u.storeByte k).startByte (k + 1) := by
  rw [State.afterBit, readBitIdx_of_some hi, if_neg (by decide), readByteIdx_of_some hk, if_pos hlt]

/-- After the last bit of the frame the core goes to the commit. -/
theorem afterBit_of_last {u : State} (hi : u.bitIdx = some 7) (hk : u.byteIdx = some 4) :
    u.afterBit = (u.storeByte 4).goto .uCommit := by
  rw [State.afterBit, readBitIdx_of_some hi, if_neg (by decide), readByteIdx_of_some hk, if_neg (by decide)]

/-- The bytes of `FrameDecode` from index `k` on. -/
theorem runs_readBytes {k' : Option (Fin 5)} {i' : Option (Fin 8)} (ks : List (Fin 5)) (k : Fin 5)
    (hlast : UpTo 4 k ks) (h : InFlight p k' i' s) :
    Runs ((ks.length + 1) * (8 * bitSteps p)) (s.startByte k) (readBytes (k :: ks) s)
      (InFlight p (some 4) (some 7)) (State.goto .uCommit) := by
  induction ks generalizing s k k' i' with
  | nil =>
    obtain rfl : k = 4 := hlast
    rw [readBytes_cons, List.length_nil, Nat.zero_add, Nat.one_mul]
    refine (runs_readByte h).andThen (b := 0) fun u hu => ⟨?_, ?_⟩
    · exact hu.congr rfl rfl rfl rfl rfl rfl
    · rw [afterBit_of_last hu.bitIdx hu.byteIdx]
      exact .refl _
  | cons j js ih =>
    obtain ⟨hk, rfl, hlast⟩ := hlast
    rw [readBytes_cons, List.length_cons, Nat.add_comm, Nat.add_mul, Nat.one_mul]
    refine (runs_readByte h).andThen fun u hu => ?_
    rw [afterBit_of_lt hu.bitIdx hu.byteIdx hk]
    exact ih (k + 1) hlast (s := u.storeByte k) (hu.congr rfl rfl rfl rfl rfl rfl)

end Frame

/-! #### The handshake and the whole UPDATE (41_line_controller.md R120-R125, 40_host_operations.md R104) -/

section Update

variable {p : Parameters} {k : Option (Fin 5)} {i : Option (Fin 8)} {s : State}

theorem idleCheck_eq (s : State) :
    idleCheck s = orFail (fun _ => .idleTimeout) (waitForPin .high (s.goto .uIdleWait)) := by
  rw [idleCheck]
  split
  · next u h => simp [h]
  · next u h => simp [h]

theorem runs_idleCheck (h : InFlight p k i s) :
    Runs (2 * p.timeout) (s.enterSampler .uIdleWait) (idleCheck s) (InFlight p k i) (State.goto .uWakeMode) := by
  rw [idleCheck_eq]
  exact runs_waitForPin nofun (fun _ hu _ => sequencerStep_uIdleWait hu) h

theorem ack_eq (s : State) :
    ack s = andThen (orFail (fun _ => .ackLowTimeout) (waitForPin .low (s.goto .uAckLow))) fun u =>
      orFail (fun _ => .ackHighTimeout) (waitForPin .high (u.goto .uAckHigh)) := by
  rw [ack]
  split
  · next u h => simp [h, failing]
  · next u h =>
    split
    · next v h' => simp [h, h']
    · next v h' => simp [h, h']

theorem runs_ack (h : InFlight p k i s) :
    Runs (2 * p.timeout + 2 * p.timeout) (s.enterSampler .uAckLow) (ack s) (InFlight p k i) State.startFrame := by
  rw [ack_eq]
  exact (runs_waitForPin (ph := .uAckLow) nofun (fun _ hu _ => sequencerStep_uAckLow hu) h).andThen fun _ hu =>
    runs_waitForPin (ph := .uAckHigh) nofun (fun _ hv _ => sequencerStep_uAckHigh hv) hu

theorem InFlight.wakePulse (h : InFlight p k i s) : InFlight p k i (wakePulse s) :=
  (((((h.goto .uWakeMode).setMode .output).goto .uWakeDrive).lineWrite .low).goto .uWakeHold).delay wakeUs

theorem InFlight.release (h : InFlight p k i s) : InFlight p k i (release s) :=
  (((h.goto .uRelMode).setMode .input).goto .uRelSettle).delay settleUs

/-- The three rows of the wake pulse run `WakePulse` (41_line_controller.md R122). -/
theorem reaches_wakePulse (h : InFlight p k i s) : Reaches 3 (s.goto .uWakeMode) ((wakePulse s).goto .uRelMode) := by
  have hdrive := ((h.goto .uWakeMode).setMode .output).goto .uWakeDrive
  refine (h.goto .uWakeMode).reaches_succ nofun ?_
  rw [sequencerStep_uWakeMode rfl]
  refine hdrive.reaches_succ nofun ?_
  rw [sequencerStep_uWakeDrive rfl]
  refine ((hdrive.lineWrite .low).goto .uWakeHold).reaches_succ nofun ?_
  rw [sequencerStep_uWakeHold rfl]
  exact .refl _

/-- The two rows of the release run `Release` (41_line_controller.md R123). -/
theorem reaches_release (h : InFlight p k i s) :
    Reaches 2 (s.goto .uRelMode) ((release s).enterSampler .uAckLow) := by
  refine (h.goto .uRelMode).reaches_succ nofun ?_
  rw [sequencerStep_uRelMode rfl]
  refine (((h.goto .uRelMode).setMode .input).goto .uRelSettle).reaches_succ nofun ?_
  rw [sequencerStep_uRelSettle rfl]
  exact .refl _

/-- `Update` up to the commit: the handshake and the bytes of the frame. -/
def receive (s : State) : Bool × State :=
  andThen (idleCheck s) fun u => andThen (ack (release (wakePulse u))) (readBytes [0, 1, 2, 3, 4])

theorem updateSequence_eq (s : State) :
    updateSequence s = andThen (receive s) fun u => commit (u.goto .uCommit) := by
  rw [updateSequence, receive]
  split
  · next u h => simp [h]
  · next u h =>
    split
    · next v h' => simp [h, h']
    · next v h' =>
      rw [frameDecode]
      split
      · next w h'' => simp [h, h', h'']
      · next w h'' => simp [h, h', h'']

theorem runs_receive (h : InFlight p k i s) :
    Runs (2 * updateReadBound p + 5) (s.enterSampler .uIdleWait) (receive s) (InFlight p (some 4) (some 7))
      (State.goto .uCommit) := by
  have hbound : 2 * p.timeout + (5 + (2 * p.timeout + 2 * p.timeout + 5 * (8 * bitSteps p))) =
      2 * updateReadBound p + 5 := by
    simp only [updateReadBound, bitSteps]
    omega
  rw [← hbound]
  refine (runs_idleCheck h).andThen fun u hu => ?_
  have hwake : Reaches 5 (u.goto .uWakeMode) ((release (wakePulse u)).enterSampler .uAckLow) :=
    (reaches_wakePulse hu).trans (reaches_release hu.wakePulse)
  exact .of_reaches hwake <| (runs_ack hu.wakePulse.release).andThen fun v hv =>
    runs_readBytes [1, 2, 3, 4] 0 (by simp [UpTo]) hv

/-- The row at `U_COMMIT` runs `Commit` and ends the UPDATE (44_frame_decoder.md R186, R187). -/
theorem reaches_commit (h : InFlight p k i s) :
    Reaches 1 (s.goto .uCommit) ((commit (s.goto .uCommit)).2.finish (commit (s.goto .uCommit)).1) := by
  refine (h.goto .uCommit).reaches_succ nofun ?_
  have hrow : sequencerStep (s.goto .uCommit) =
      (commit (s.goto .uCommit)).2.finish (commit (s.goto .uCommit)).1 := by
    rw [sequencerStep_uCommit rfl, State.deliverResult, commit, commitResult]
    split
    · rfl
    · rfl
  rw [hrow]
  exact .refl _

/-- From the acceptance of UPDATE the steps lead to the end of the whole procedure. -/
theorem reaches_updateCall (h : InFlight p k i s) :
    Reaches (2 * updateReadBound p + 6) s.acceptUpdate (updateCall s) := by
  have hstart : InFlight p k i { s with abort := some .noAbort } := h.congr rfl rfl rfl rfl rfl rfl
  have hreceive := runs_receive hstart
  rw [updateCall, updateSequence_eq]
  generalize receive { s with abort := some .noAbort } = r at hreceive ⊢
  obtain ⟨_ | _, u⟩ := r
  · exact hreceive
  · exact hreceive.2.trans (reaches_commit hreceive.1)

end Update

/-- Settles O54: the rows run the pseudocode procedure by procedure, and twice the polls bound the steps. -/
theorem updateRunsTheRulesPseudocode : Obligations.UpdateRunsTheRulesPseudocode := by
  intro s hr ht hh hd
  obtain ⟨⟨hp, hf⟩, _⟩ := ready_iff.mp hr
  have hflight : InFlight s.params s.byteIdx s.bitIdx s := ⟨runnable_iff.mpr ⟨hp, hf⟩, hd, ht, rfl, rfl, rfl⟩
  obtain ⟨n, hn, hrun⟩ := reaches_updateCall hflight
  have haccept : exec .update s = .next s.acceptUpdate :=
    (whenFree_of_ready hr).trans (withHandle_of_handle hh)
  exact ⟨s.acceptUpdate, n, haccept, hn, hrun⟩

end Sys2Proof.Machine

namespace Sys2Proof.Machine

/-! ### Byte order (00_scope.md R9, 20_memory.md R52) -/

theorem concat16_eq_append (hi lo : Byte) : concat16 hi lo = hi ++ lo := by
  have happend := BitVec.setWidth_append_eq_shiftLeft_setWidth_or (w'' := 16) (b := hi) (b' := lo)
  rw [BitVec.setWidth_eq] at happend
  exact happend.symm

/-- The low byte fits below the shifted high one, so the OR of the two is their sum. -/
theorem toNat_append_bytes (hi lo : Byte) : (hi ++ lo).toNat = hi.toNat * 256 + lo.toNat := by
  rw [BitVec.toNat_append, ← Nat.shiftLeft_add_eq_or_of_lt lo.isLt, Nat.shiftLeft_eq]

/-- Settles O38: the assembled word is the concatenation, whose value is read off its two bytes. -/
theorem fieldsAreBigEndian : Obligations.FieldsAreBigEndian := fun hi lo =>
  ⟨concat16_eq_append hi lo, concat16_eq_append hi lo ▸ toNat_append_bytes hi lo⟩

/-! ### The accessors (40_host_operations.md R105, R106; 20_memory.md R58) -/

section Accessors

variable {s : State} {v : Word16}

theorem readCache_of_written {a : Accessor} (hc : s.cacheWritten = true) :
    readCache a v s = .next (s.respond (.word v)) := by
  simp [readCache, hc]

theorem exec_lastT_of_cached (hr : s.ready = true) (hh : s.handleExists = true)
    (hc : s.cacheWritten = true) (hv : s.cacheT = some v) :
    exec .lastT s = .next (s.respond (.word v)) := by
  rw [← readCacheT_of_some hv]
  exact (whenFree_of_ready hr).trans ((withHandle_of_handle hh).trans (readCache_of_written hc))

theorem exec_lastH_of_cached (hr : s.ready = true) (hh : s.handleExists = true)
    (hc : s.cacheWritten = true) (hv : s.cacheH = some v) :
    exec .lastH s = .next (s.respond (.word v)) := by
  rw [← readCacheH_of_some hv]
  exact (whenFree_of_ready hr).trans ((withHandle_of_handle hh).trans (readCache_of_written hc))

end Accessors

theorem execAll_cons_of_next {i : Instr} {s s' : State} (h : exec i s = .next s') (is : List Instr) :
    execAll (i :: is) s = execAll is s' := by
  simp [execAll, h]

/-- Settles O22, by induction on the calls: a response leaves what the next accessor reads as it was. -/
theorem accessorsHaveNoSideEffects : Obligations.AccessorsHaveNoSideEffects := by
  intro s vT vH calls hr hh hc hT hH hcalls
  induction calls generalizing s with
  | nil => simp [execAll]
  | cons i is ih =>
    obtain ⟨hi, his⟩ := List.forall_mem_cons.mp hcalls
    have hcall : exec i s = .next (s.respond (.word (if i = .lastT then vT else vH))) := by
      obtain rfl | rfl := hi
      · exact exec_lastT_of_cached hr hh hc hT
      · exact exec_lastH_of_cached hr hh hc hH
    rw [execAll_cons_of_next hcall, ih (s.respond _) hr hh hc hT hH his]
    simp [State.respond]

end Sys2Proof.Machine

namespace Sys2Proof.Machine

/-! ### Command words (30_encoding.md R70-R75, R84) -/

/-- Every command's word decodes to it, CONSTRUCT's with its pin. -/
@[simp] theorem decode_encode (i : Instr) : decode (encode i) = .command i := by
  cases i <;> simp [encode, decode, opcodeOf, operandOf]

/-- A word is a command's word exactly when it has that command's two fields. -/
theorem encode_eq_iff {w : Word16} {i : Instr} :
    encode i = w ↔ opcodeField w = opcodeOf i ∧ operandField w = operandOf i := by
  constructor
  · rintro rfl
    simp [encode]
  · rintro ⟨hopc, hopd⟩
    rw [encode, ← hopc, ← hopd, commandWord_fields]

theorem encode_of_decode {w : Word16} {i : Instr} (h : decode w = .command i) : encode i = w :=
  encode_eq_iff.mpr (decode_command_fields h)

/-- Settles O1: encoding is a right inverse of decoding, and a word is no more than its two fields. -/
theorem decodeAndEncodeAgree : Obligations.DecodeAndEncodeAgree := fun _ i =>
  ⟨encode_of_decode, fun h => h ▸ decode_encode i⟩

/-- The decoder refuses exactly the words that no command has. -/
theorem decode_eq_illegal_iff {w : Word16} : decode w = .illegal w ↔ ¬∃ i, encode i = w := by
  constructor
  · rintro h ⟨i, rfl⟩
    simp at h
  · intro h
    cases hd : decode w with
    | command i => exact absurd ⟨i, encode_of_decode hd⟩ h
    | illegal v => rw [decode_illegal_word hd]

/-- The words of commands: any operand with CONSTRUCT's opcode, no operand with the three others. -/
theorem exists_encode_eq_iff {w : Word16} :
    (∃ i, encode i = w) ↔
      opcodeField w = 0x01#8 ∨ (opcodeField w ∈ [0x02#8, 0x03#8, 0x04#8] ∧ operandField w = 0#8) := by
  constructor
  · rintro ⟨i, rfl⟩
    cases i <;> simp [encode, opcodeOf, operandOf]
  · rintro (hopc | ⟨hopc, hopd⟩)
    · exact ⟨.construct (operandField w), encode_eq_iff.mpr ⟨hopc, rfl⟩⟩
    · simp only [List.mem_cons, List.not_mem_nil, or_false] at hopc
      obtain hopc | hopc | hopc := hopc
      · exact ⟨.update, encode_eq_iff.mpr ⟨hopc, hopd⟩⟩
      · exact ⟨.lastT, encode_eq_iff.mpr ⟨hopc, hopd⟩⟩
      · exact ⟨.lastH, encode_eq_iff.mpr ⟨hopc, hopd⟩⟩

/-- Settles O2: the words that no command has, by whether the opcode is CONSTRUCT's. -/
theorem illegalWordsAreTheOnesNamed : Obligations.IllegalWordsAreTheOnesNamed := by
  intro w
  refine ⟨?_, fun v => decode_illegal_word⟩
  rw [decode_eq_illegal_iff, exists_encode_eq_iff]
  by_cases hopc : opcodeField w = 0x01#8
  · simp [hopc]
  · have hmem : opcodeField w ∈ [0x01#8, 0x02#8, 0x03#8, 0x04#8] ↔
        opcodeField w ∈ [0x02#8, 0x03#8, 0x04#8] :=
      List.mem_cons.trans (or_iff_right hopc)
    rw [hmem]
    tauto

/-- Settles O3, row by row of R75's table. -/
theorem exampleWordsDecode : Obligations.ExampleWordsDecode := by
  unfold Obligations.ExampleWordsDecode
  decide

/-- Settles O4: the expansion is finite, so it is computed. -/
theorem readAllExpandsToThreeWords : Obligations.ReadAllExpandsToThreeWords := by
  unfold Obligations.ReadAllExpandsToThreeWords
  decide

/-! ### Response bits (30_encoding.md R76) -/

/-- Settles O6: an accessor's bits are its word's, read from bit 0 up. -/
theorem responsesCarryTheirBits : Obligations.ResponsesCarryTheirBits := by
  refine ⟨rfl, rfl, rfl, fun v => ⟨?_, fun i hi => ?_⟩⟩
  · simp [responseBits]
  · simp [responseBits, hi]

/-! ### Sign and magnitude (30_encoding.md R79, 44_frame_decoder.md R184) -/

theorem asInt16_of_lt {x : Word16} (h : x.toNat < 32768) : asInt16 x = (x.toNat : Int) :=
  BitVec.toInt_eq_toNat_of_lt (by omega)

/-- `neg16` negates every magnitude; 0 is its own negation. -/
theorem asInt16_neg16 {x : Word16} (h : x.toNat < 32768) : asInt16 (neg16 x) = -(x.toNat : Int) := by
  have hv : (neg16 x).toNat = (65536 - x.toNat) % 65536 := by simp [neg16]
  rw [asInt16, BitVec.toInt_eq_toNat_cond, hv]
  split <;> omega

theorem toNat_magnitude (r : Word16) : ((r.extractLsb' 0 15).setWidth 16).toNat = r.toNat % 32768 := by
  rw [BitVec.toNat_setWidth, BitVec.extractLsb'_toNat, Nat.shiftRight_zero]
  omega

theorem toNat_lt_of_sign_clear {r : Word16} (h : r.getLsbD 15 = false) : r.toNat < 32768 := by
  have hmsb : r.msb = false := by rw [BitVec.msb_eq_getLsbD_last]; exact h
  have hlt := BitVec.msb_eq_false_iff_two_mul_lt.mp hmsb
  omega

theorem asInt16_signCorrect (r : Word16) : asInt16 (signCorrect r) = temperatureValue r := by
  unfold signCorrect temperatureValue
  split
  · have hm := toNat_magnitude r
    rw [asInt16_neg16 (by omega), hm]
  · next hs =>
    have hlt := toNat_lt_of_sign_clear (Bool.eq_false_of_not_eq_true hs)
    rw [asInt16_of_lt hlt, Nat.mod_eq_of_lt hlt]

/-- Settles O37: the value by its sign bit; 0x8000 would need the magnitude 0x8000. -/
theorem signCorrectionIsExact : Obligations.SignCorrectionIsExact := fun r =>
  ⟨asInt16_signCorrect r, signCorrect_ne_min r⟩

/-! ### Pin numerals (30_encoding.md R82) -/

theorem decimalDigit_digitChar : ∀ n < 10, decimalDigit (Nat.digitChar n) = some n := by decide

theorem hexDigit_digitChar : ∀ n < 16, hexDigit (Nat.digitChar n) = some n := by decide

theorem hexDigit_digitChar_toUpper : ∀ n < 16, hexDigit (Nat.digitChar n).toUpper = some n := by decide

/-- A hexadecimal digit is read in either case. -/
theorem hexDigit_of_mem {n : Nat} {ch : Char} (hn : n < 16)
    (hch : ch ∈ [Nat.digitChar n, (Nat.digitChar n).toUpper]) : hexDigit ch = some n := by
  obtain rfl | rfl := List.mem_pair.mp hch
  · exact hexDigit_digitChar n hn
  · exact hexDigit_digitChar_toUpper n hn

/-- A numeral's value, from any value of the digits before it. -/
theorem decimalValue_digitChars {ds : List Nat} (h : ∀ n ∈ ds, n < 10) (v : Nat) :
    decimalValue v (ds.map Nat.digitChar) = some (ds.foldl (fun v n => 10 * v + n) v) := by
  induction ds generalizing v with
  | nil => rfl
  | cons d ds ih =>
    obtain ⟨hd, hds⟩ := List.forall_mem_cons.mp h
    simp [decimalValue, decimalDigit_digitChar d hd, ih hds]

/-- No decimal numeral has the form of a hexadecimal one, since 'x' is no digit. -/
theorem parsePin_of_decimalValue {cs : List Char} {v : Nat} (hcs : cs ≠ [])
    (hv : decimalValue 0 cs = some v) :
    parsePin cs = if v ≤ 255 then some (BitVec.ofNat 8 v) else none := by
  unfold parsePin
  split
  · contradiction
  · simp [decimalValue, decimalDigit] at hv
  · simp [hv]

theorem parsePin_hex {hi lo : Char} {h l : Nat} (hh : hexDigit hi = some h) (hl : hexDigit lo = some l) :
    parsePin ['0', 'x', hi, lo] = some (BitVec.ofNat 8 (16 * h + l)) := by
  simp [parsePin, hh, hl]

/-- Settles O58: the digits one by one, then the two forms of a numeral. -/
theorem pinNumeralsDenoteTheirValue : Obligations.PinNumeralsDenoteTheirValue := by
  refine ⟨fun ds hne hds => ?_, fun h l hh hl hi hhi lo hlo => ?_, rfl⟩
  · exact parsePin_of_decimalValue (by simpa using hne) (decimalValue_digitChars hds 0)
  · exact parsePin_hex (hexDigit_of_mem hh hhi) (hexDigit_of_mem hl hlo)

end Sys2Proof.Machine

namespace Sys2Proof.Machine

/-! ### The words of a line (30_encoding.md R82) -/

/-- The characters that end a word: the start of a comment and the blanks. -/
def delimiters : List Char := [';', ' ', '\t', '\r']

/-- What one word of a line can hold. -/
def IsWord (word : List Char) : Prop := ∀ ch ∈ word, ch ∉ delimiters

@[simp] theorem isWord_nil : IsWord [] := List.forall_mem_nil _

@[simp] theorem isWord_cons {ch : Char} {word : List Char} :
    IsWord (ch :: word) ↔ ch ∉ delimiters ∧ IsWord word :=
  List.forall_mem_cons

@[simp] theorem isWord_append {word rest : List Char} : IsWord (word ++ rest) ↔ IsWord word ∧ IsWord rest :=
  List.forall_mem_append

theorem not_mem_delimiters_iff {ch : Char} : ch ∉ delimiters ↔ ch ≠ ';' ∧ isBlank ch = false := by
  simp [delimiters, isBlank, and_assoc]

theorem lineWords_char_cons {ch : Char} {line word : List Char} {words : List (List Char)}
    (hch : ch ∉ delimiters) (h : lineWords line = word :: words) :
    lineWords (ch :: line) = (ch :: word) :: words := by
  obtain ⟨hcomment, hblank⟩ := not_mem_delimiters_iff.mp hch
  simp [lineWords, hcomment, hblank, h]

theorem lineWords_char {ch : Char} (hch : ch ∉ delimiters) : lineWords [ch] = [[ch]] := by
  obtain ⟨hcomment, hblank⟩ := not_mem_delimiters_iff.mp hch
  simp [lineWords, hcomment, hblank]

theorem lineWords_word {ch : Char} {word : List Char} (hw : IsWord (ch :: word)) :
    lineWords (ch :: word) = [ch :: word] := by
  induction word generalizing ch with
  | nil => exact lineWords_char (isWord_cons.mp hw).1
  | cons d word ih =>
    obtain ⟨hch, hword⟩ := isWord_cons.mp hw
    exact lineWords_char_cons hch (ih hword)

/-- A word and a space before a line are one word more. -/
theorem lineWords_word_space {word : List Char} (hw : IsWord word) (line : List Char) :
    lineWords (word ++ ' ' :: line) = word :: lineWords line := by
  induction word with
  | nil => rfl
  | cons ch word ih =>
    obtain ⟨hch, hword⟩ := isWord_cons.mp hw
    exact lineWords_char_cons hch (ih hword)

/-- The words of a line end at its comment. -/
theorem lineWords_comment (line comment : List Char) :
    lineWords (line ++ ';' :: comment) = lineWords line := by
  induction line with
  | nil => rfl
  | cons ch line ih => simp [lineWords, ih]

theorem tokens_word {word : List Char} (hne : word ≠ []) (hw : IsWord word) : tokens word = [word] := by
  obtain ⟨ch, rest, rfl⟩ := List.exists_cons_of_ne_nil hne
  simp [tokens, lineWords_word hw]

theorem tokens_word_space {word : List Char} (hne : word ≠ []) (hw : IsWord word) (line : List Char) :
    tokens (word ++ ' ' :: line) = word :: tokens line := by
  simp [tokens, lineWords_word_space hw, hne]

theorem parseLine_comment (line comment : List Char) :
    parseLine (line ++ ';' :: comment) = parseLine line := by
  simp [parseLine, tokens, lineWords_comment]

/-! ### The characters of mnemonics and numerals -/

/-- No letter is a delimiter, in either case. -/
theorem isWord_of_toUpper {word : List Char} (h : IsWord (word.map Char.toUpper)) : IsWord word := by
  have hfix : ∀ ch ∈ delimiters, ch.toUpper = ch := by simp [delimiters]
  intro ch hch hd
  exact h ch.toUpper (List.mem_map_of_mem hch) ((hfix ch hd).symm ▸ hd)

theorem not_mem_delimiters_of_decimalDigit {ch : Char} {n : Nat} (h : decimalDigit ch = some n) :
    ch ∉ delimiters := by
  have hnone : ∀ ch ∈ delimiters, decimalDigit ch = none := by simp [delimiters, decimalDigit]
  intro hd
  simp [hnone ch hd] at h

theorem not_mem_delimiters_of_hexDigit {ch : Char} {n : Nat} (h : hexDigit ch = some n) :
    ch ∉ delimiters := by
  have hnone : ∀ ch ∈ delimiters, hexDigit ch = none := by simp [delimiters, hexDigit]
  intro hd
  simp [hnone ch hd] at h

theorem isWord_of_decimalValue {cs : List Char} {v n : Nat} (h : decimalValue v cs = some n) :
    IsWord cs := by
  induction cs generalizing v with
  | nil => simp
  | cons ch cs ih =>
    unfold decimalValue at h
    split at h
    · next hdigit => exact isWord_cons.mpr ⟨not_mem_delimiters_of_decimalDigit hdigit, ih h⟩
    · cases h

/-- A numeral that denotes a pin is one word. -/
theorem isWord_of_parsePin {numeral : List Char} {pin : Byte} (h : parsePin numeral = some pin) :
    IsWord numeral := by
  unfold parsePin at h
  split at h
  · cases h
  · next hi lo =>
    split at h
    · next hhi hlo =>
      have hhead : IsWord ['0', 'x'] := by simp [delimiters]
      have hdigits : IsWord [hi, lo] := by
        simp [not_mem_delimiters_of_hexDigit hhi, not_mem_delimiters_of_hexDigit hlo]
      exact isWord_append.mpr ⟨hhead, hdigits⟩
    · cases h
  · split at h
    · next hv => exact isWord_of_decimalValue hv
    · cases h

theorem ne_nil_of_parsePin {numeral : List Char} {pin : Byte} (h : parsePin numeral = some pin) :
    numeral ≠ [] := by
  rintro rfl
  cases h

/-! ### The commands of a line (30_encoding.md R82-R84) -/

section Mnemonics

variable {word : List Char}

/-- A mnemonic has no parenthesis, so no spelling of it is a call. -/
theorem ne_call_of_toUpper {m : List Char} (h : word.map Char.toUpper = m) (hm : ')' ∉ m) :
    ∀ call : List Char, ')' ∈ call → word ≠ call := by
  rintro _ hcall rfl
  exact hm (h ▸ List.mem_map_of_mem (f := Char.toUpper) hcall)

theorem parsePlain_update (h : word.map Char.toUpper = "UPDATE".toList) :
    parsePlain word = some [.update] :=
  if_pos (.inl h)

theorem parsePlain_lastT (h : word.map Char.toUpper = "LAST_T".toList) :
    parsePlain word = some [.lastT] := by
  have hcall := ne_call_of_toUpper h (by simp)
  simp [parsePlain, h, hcall]

theorem parsePlain_lastH (h : word.map Char.toUpper = "LAST_H".toList) :
    parsePlain word = some [.lastH] := by
  have hcall := ne_call_of_toUpper h (by simp)
  simp [parsePlain, h, hcall]

theorem parsePlain_readAll (h : word.map Char.toUpper = "READ_ALL".toList) :
    parsePlain word = some readAll := by
  have hcall := ne_call_of_toUpper h (by simp)
  simp [parsePlain, h, hcall]

/-- A line that is one word of the plain commands holds what the word means. -/
theorem parseLine_of_parsePlain {is : List Instr} (hw : IsWord word) (h : parsePlain word = some is) :
    parseLine word = some is := by
  have hne : word ≠ [] := by
    rintro rfl
    cases h
  simp [parseLine, tokens_word hne hw, h]

/-- A mnemonic without an operand, in any case. -/
theorem parseLine_mnemonic {m : List Char} {is : List Instr} (hm : IsWord m)
    (h : word.map Char.toUpper = m) (hp : parsePlain word = some is) : parseLine word = some is :=
  parseLine_of_parsePlain (isWord_of_toUpper (h ▸ hm)) hp

theorem parseLine_construct {numeral : List Char} {pin : Byte}
    (h : word.map Char.toUpper = "CONSTRUCT".toList) (hp : parsePin numeral = some pin) :
    parseLine (word ++ ' ' :: numeral) = some [.construct pin] := by
  have hw : IsWord word := isWord_of_toUpper (h ▸ (by simp [delimiters] : IsWord "CONSTRUCT".toList))
  have hne : word ≠ [] := by
    rintro rfl
    cases h
  have htokens : tokens (word ++ ' ' :: numeral) = [word, numeral] := by
    rw [tokens_word_space hne hw, tokens_word (ne_nil_of_parsePin hp) (isWord_of_parsePin hp)]
  simp [parseLine, htokens, h, hp]

end Mnemonics

theorem parsePlain_constructCall (rest : List Char) : parsePlain ("construct(".toList ++ rest) = none := by
  simp [parsePlain]

theorem parseConstructCall_of_parsePin {numeral : List Char} {pin : Byte} (hp : parsePin numeral = some pin) :
    parseConstructCall ("construct(".toList ++ numeral ++ ")".toList) = some [.construct pin] := by
  have hlast : ("construct(".toList ++ numeral ++ ")".toList).getLast? = some ')' := List.getLast?_concat ..
  have hdrop : ("construct(".toList ++ numeral ++ ")".toList).drop 10 = numeral ++ [')'] := rfl
  rw [parseConstructCall, if_pos ⟨rfl, hlast⟩, hdrop, List.dropLast_concat]
  simp only [hp]

theorem parseLine_constructCall {numeral : List Char} {pin : Byte} (hp : parsePin numeral = some pin) :
    parseLine ("construct(".toList ++ numeral ++ ")".toList) = some [.construct pin] := by
  have hw : IsWord ("construct(".toList ++ numeral ++ ")".toList) := by
    simp [delimiters, isWord_of_parsePin hp]
  have hplain : parsePlain ("construct(".toList ++ numeral ++ ")".toList) = none := by
    rw [List.append_assoc, parsePlain_constructCall]
  rw [parseLine, tokens_word (by simp) hw]
  simp only [hplain, parseConstructCall_of_parsePin hp]

/-- Settles O5: a call and a mnemonic with the same numeral, and the names without an operand. -/
theorem aliasesMeanTheirCommands : Obligations.AliasesMeanTheirCommands := by
  refine ⟨fun numeral pin hp => ⟨parseLine_constructCall hp, ?_⟩, by decide⟩
  exact parseLine_construct (word := "CONSTRUCT".toList) (by decide) hp

/-- Settles O59: each mnemonic's spellings, then comments and the empty line. -/
theorem hostProgramLinesAreRead : Obligations.HostProgramLinesAreRead := by
  refine ⟨fun word => ⟨fun h => ?_, fun h => ?_, fun h => ?_, fun h => ?_, fun _ _ h hp => ?_⟩,
    parseLine_comment, rfl⟩
  · exact parseLine_mnemonic (by simp [delimiters]) h (parsePlain_update h)
  · exact parseLine_mnemonic (by simp [delimiters]) h (parsePlain_lastT h)
  · exact parseLine_mnemonic (by simp [delimiters]) h (parsePlain_lastH h)
  · exact parseLine_mnemonic (by simp [delimiters]) h (parsePlain_readAll h)
  · exact parseLine_construct h hp

end Sys2Proof.Machine

namespace Sys2Proof.Machine

/-! ### The checks of dispatch (40_host_operations.md R100, R101) -/

/-- A check that is made twice decides as it does once. -/
theorem whenRunning_whenRunning (s : State) (k : Outcome) :
    whenRunning s (whenRunning s k) = whenRunning s k := by
  cases hp : s.params.wf with
  | false => rw [whenRunning_of_short hp, whenRunning_of_short hp]
  | true =>
    by_cases hf : s.fault = []
    · exact whenRunning_of_runnable (runnable_iff.mpr ⟨hp, hf⟩)
    · rw [whenRunning_of_fault hp hf, whenRunning_of_fault hp hf]

theorem whenFree_of_busy {w : Word16} {s : State} {k : Outcome} (hr : s.runnable = true)
    (hb : s.phase ≠ .idle) : whenFree w s k = .next { s with fault := [.overlap w] } := by
  rw [← raise_into_empty _ (runnable_iff.mp hr).2, whenFree, whenRunning_of_runnable hr,
    if_pos (busy_eq_true.mpr hb)]

/-- Every command's meaning makes the checks that come before decoding with its own word. -/
theorem exists_exec_eq_whenFree (i : Instr) (s : State) : ∃ k, exec i s = whenFree (encode i) s k := by
  cases i with
  | construct pin => exact ⟨_, rfl⟩
  | update => exact ⟨_, rfl⟩
  | lastT => exact ⟨_, rfl⟩
  | lastH => exact ⟨_, rfl⟩

theorem accept_of_command {w : Word16} {i : Instr} (hd : decode w = .command i) (s : State) :
    accept w s = exec i s := by
  simp [accept, hd]

theorem accept_of_illegal {w v : Word16} (hd : decode w = .illegal v) (s : State) :
    accept w s = whenFree w s (.next (s.raise (.illegalCommand w))) := by
  simp [accept, hd]

/-- Acceptance makes these checks for every word, legal or not. -/
theorem exists_accept_eq_whenFree (w : Word16) (s : State) : ∃ k, accept w s = whenFree w s k := by
  cases hd : decode w with
  | illegal v => exact ⟨_, accept_of_illegal hd s⟩
  | command i =>
    obtain rfl := encode_of_decode hd
    rw [accept_of_command hd]
    exact exists_exec_eq_whenFree i s

theorem exec_of_busy {s : State} (hr : s.runnable = true) (hb : s.phase ≠ .idle) (i : Instr) :
    exec i s = .next { s with fault := [.overlap (encode i)] } := by
  obtain ⟨k, hk⟩ := exists_exec_eq_whenFree i s
  rw [hk, whenFree_of_busy hr hb]

theorem accept_of_busy {s : State} (hr : s.runnable = true) (hb : s.phase ≠ .idle) (w : Word16) :
    accept w s = .next { s with fault := [.overlap w] } := by
  obtain ⟨k, hk⟩ := exists_accept_eq_whenFree w s
  rw [hk, whenFree_of_busy hr hb]

/-- A presented word is accepted whether or not the core may step, since acceptance makes the step's own
checks again, and these do not look at the host. -/
theorem step_eq_accept {s : State} {w : Word16} {rest : List HostMove}
    (hm : hostMove s = (some w, rest)) : step s = accept w { s with host := rest } := by
  obtain ⟨k, hk⟩ := exists_accept_eq_whenFree w { s with host := rest }
  have hadvance : advance s = accept w { s with host := rest } := by simp [advance, hm]
  rw [step, hadvance, hk]
  exact whenRunning_whenRunning { s with host := rest } _

theorem hostMove_present_zero {s : State} {w : Word16} {rest : List HostMove}
    (hh : s.host = .present 0 w :: rest) : hostMove s = (some w, rest) := by
  simp [hostMove, hh]

theorem hostMove_issue_idle {s : State} {w : Word16} {rest : List HostMove}
    (hh : s.host = .issue w :: rest) (hi : s.phase = .idle) : hostMove s = (some w, rest) := by
  simp [hostMove, hh, busy_eq_false.mpr hi]

/-- Settles O12: acceptance and every meaning raise Overlap before they look at the word. -/
theorem overlapStopsTheCommandInFlight : Obligations.OverlapStopsTheCommandInFlight := by
  intro s hr hb
  refine ⟨fun w rest hm => ⟨?_, ?_⟩, exec_of_busy hr hb⟩
  · rw [step_of_word hr hm]
    exact accept_of_busy (s := { s with host := rest }) hr hb w
  · exact step_of_fault (runnable_iff.mp hr).1 (List.cons_ne_nil _ _)

/-- Settles O9: the word is presented in each of the three ways, and accepting it runs its command. -/
theorem stepRunsThePresentedCommand : Obligations.StepRunsThePresentedCommand := by
  refine ⟨fun s w i rest hh hd => ?_, fun s nbits w i hd => ?_⟩
  · have hm : hostMove s = (some w, rest) := by
      obtain hh | ⟨hh, hi⟩ := hh
      · exact hostMove_present_zero hh
      · exact hostMove_issue_idle hh hi
    rw [step_eq_accept hm, accept_of_command hd]
  · have hm : hostMove (s.withFetchWord nbits w) = (some (tableWord nbits w), s.host) :=
      hostMove_present_zero rfl
    rw [step_eq_accept hm, accept_of_command (decodeTableWord_eq_some.mp hd)]
    rfl

/-! ### Commands in a core that accepts them (40_host_operations.md R102, R104-R107) -/

section Ready

variable {s : State}

/-- In a core that accepts commands a fault is raised into an empty FAULT. -/
theorem raise_of_ready (hr : s.ready = true) (f : ModelFault) : s.raise f = { s with fault := [f] } :=
  raise_into_empty f (ready_iff.mp hr).1.2

theorem withHandle_of_no_handle {w : Word16} {k : Outcome} (hh : s.handleExists = false) :
    withHandle w s k = .next (s.raise (.noHandle w)) := by
  simp [withHandle, hh]

theorem readCache_of_unwritten {a : Accessor} {v : Word16} (hc : s.cacheWritten = false) :
    readCache a v s = .next (s.raise (.uninitCacheRead a)) := by
  simp [readCache, hc]

theorem accept_illegal_of_ready {w v : Word16} (hr : s.ready = true) (hd : decode w = .illegal v) :
    accept w s = .next { s with fault := [.illegalCommand w] } := by
  rw [accept_of_illegal hd, whenFree_of_ready hr, raise_of_ready hr]

theorem exec_of_no_handle {i : Instr} (hr : s.ready = true) (hh : s.handleExists = false)
    (hi : ∀ pin, i ≠ .construct pin) : exec i s = .next { s with fault := [.noHandle (encode i)] } := by
  rw [← raise_of_ready hr]
  cases i with
  | construct pin => exact absurd rfl (hi pin)
  | update => exact (whenFree_of_ready hr).trans (withHandle_of_no_handle hh)
  | lastT => exact (whenFree_of_ready hr).trans (withHandle_of_no_handle hh)
  | lastH => exact (whenFree_of_ready hr).trans (withHandle_of_no_handle hh)

/-- The handle is the last check of every command but CONSTRUCT. -/
theorem exec_eq_ite_handle {i : Instr} (hr : s.ready = true) (hi : ∀ pin, i ≠ .construct pin) :
    exec i s = if s.handleExists = false then .next { s with fault := [.noHandle (encode i)] }
      else exec i s := by
  by_cases hh : s.handleExists = false
  · rw [if_pos hh, exec_of_no_handle hr hh hi]
  · rw [if_neg hh]

end Ready

/-- Settles O11: one check after another, each passed by the states the next one decides. -/
theorem acceptanceChecksInOrder : Obligations.AcceptanceChecksInOrder := by
  intro s w rest hm
  by_cases hshort : s.params.timeout < 10
  · rw [if_pos hshort, step_of_short (wf_eq_false_iff.mpr hshort)]
  have hp : s.params.wf = true := Bool.eq_true_of_not_eq_false (mt wf_eq_false_iff.mp hshort)
  rw [if_neg hshort]
  by_cases hf : s.fault ≠ []
  · rw [if_pos hf, step_of_fault hp hf]
  have hr : s.runnable = true := runnable_iff.mpr ⟨hp, not_not.mp hf⟩
  rw [if_neg hf, step_of_word hr hm]
  by_cases hb : s.phase ≠ .idle
  · rw [if_pos hb]
    exact accept_of_busy (s := { s with host := rest }) hr hb w
  have hready : State.ready { s with host := rest } = true :=
    ready_iff.mpr ⟨⟨hp, not_not.mp hf⟩, not_not.mp hb⟩
  rw [if_neg hb]
  cases hd : decode w with
  | illegal v => exact accept_illegal_of_ready hready hd
  | command i =>
    obtain rfl := encode_of_decode hd
    rw [accept_of_command hd]
    cases i with
    | construct pin => rfl
    | update => exact exec_eq_ite_handle hready nofun
    | lastT => exact exec_eq_ite_handle hready nofun
    | lastH => exact exec_eq_ite_handle hready nofun

/-- Settles O13: the raise names each command's own word. -/
theorem noHandleIsRaised : Obligations.NoHandleIsRaised := fun _ hr hh =>
  ⟨exec_of_no_handle hr hh nofun, exec_of_no_handle hr hh nofun, exec_of_no_handle hr hh nofun⟩

/-- Settles O14: with a handle an accessor is the read of the cache, which CACHE_WRITTEN decides. -/
theorem unwrittenCacheReadIsRaised : Obligations.UnwrittenCacheReadIsRaised := by
  intro s hr hh hc
  rw [← raise_of_ready hr, ← raise_of_ready hr]
  refine ⟨?_, ?_⟩
  · exact (whenFree_of_ready hr).trans ((withHandle_of_handle hh).trans (readCache_of_unwritten hc))
  · exact (whenFree_of_ready hr).trans ((withHandle_of_handle hh).trans (readCache_of_unwritten hc))

/-- Settles O19: past the two checks UPDATE is its acceptance, the first row of R35. -/
theorem updateIsAccepted : Obligations.UpdateIsAccepted := fun _ hr hh =>
  (whenFree_of_ready hr).trans (withHandle_of_handle hh)

/-- Settles O20: the response is the only difference. -/
theorem lastTRespondsTheCachedTemperature : Obligations.LastTRespondsTheCachedTemperature :=
  fun _ _ => exec_lastT_of_cached

/-- Settles O21: the response is the only difference. -/
theorem lastHRespondsTheCachedHumidity : Obligations.LastHRespondsTheCachedHumidity :=
  fun _ _ => exec_lastH_of_cached

end Sys2Proof.Machine

namespace Sys2Proof.Machine

/-! ### The handshake, call by call (41_line_controller.md R121-R127) -/

/-- Settles O29: each row is its call, then the move to the next point. -/
theorem wakePulseAndReleaseRows : Obligations.WakePulseAndReleaseRows := fun _ =>
  ⟨sequencerStep_uWakeMode, sequencerStep_uWakeDrive, sequencerStep_uWakeHold, sequencerStep_uRelMode,
    sequencerStep_uRelSettle⟩

/-- A run and one that goes on from its end. -/
theorem run_trans {m n : Nat} {s t u : State} (h : run m s = .next t) (h' : run n t = .next u) :
    run (m + n) s = .next u :=
  (run_add h).trans h'

/-- The events of `n` polls that read `l` and go on, with a tick of `us` (42_sampler.md R140). -/
def pollEvents (us : Nat) (l : Level) (n : Nat) : List Event :=
  (List.replicate n [Event.evRead l, Event.evDelay us]).flatten

@[simp] theorem pollEvents_zero (us : Nat) (l : Level) : pollEvents us l 0 = [] := rfl

@[simp] theorem pollEvents_succ (us : Nat) (l : Level) (n : Nat) :
    pollEvents us l (n + 1) = .evRead l :: .evDelay us :: pollEvents us l n := by
  simp [pollEvents, List.replicate_succ]

section Handshake

variable {p : Parameters} {k : Option (Fin 5)} {b : Option (Fin 8)} {s : State}

/-- While a command is in flight a run goes on from the sequencer's row. -/
theorem InFlight.run_succ (h : InFlight p k b s) (hb : s.phase ≠ .idle) (n : Nat) :
    run (n + 1) s = run n (sequencerStep s) :=
  Machine.run_succ (step_in_flight h.runnable h.disciplined hb)

/-- A poll that goes on, as the two calls it makes. -/
theorem pollTick_eq_performed {l : Level} {c : Nat} (ht : s.tickDue = false) (hc : s.c = some c)
    (hl : s.nextLevel = l) :
    s.pollTick = State.performed [.evRead l, .evDelay s.params.samplerTickUs]
      { s with line := s.line.tail, draws := s.draws + 1, c := some (c + 1) } := by
  subst hl
  rw [← readC_of_some hc]
  refine Eq.trans ?_ (performed_performed [.evRead s.nextLevel] [.evDelay s.params.samplerTickUs] _)
  cases s
  cases ht
  rfl

section Wait

variable {ph : Phase} {target l : Level} {reason : State → Abort} {exit : State → State} {c : Nat}

/-- A poll that goes on takes two steps (42_sampler.md R140; log entry 7). -/
theorem InFlight.run_poll (h : InFlight p k b s) (hb : ph ≠ .idle)
    (hrow : ∀ t, t.phase = ph → sequencerStep t = samplerStep target (reason t) exit t) (hs : s.phase = ph)
    (hc : s.readC < p.timeout) (hl : s.nextLevel ≠ target) : run 2 s = .next s.pollTick := by
  have hcount : sequencerStep s = s.countPoll := by
    rw [hrow s hs, samplerStep_mismatch h.tickDue (h.params ▸ hc) hl]
  have htick : sequencerStep s.countPoll = s.pollTick := by
    rw [hrow s.countPoll hs, samplerStep_tick rfl, State.countPoll_params]
  rw [h.run_succ (hs ▸ hb), hcount, ← htick]
  exact run_one (step_in_flight (by simpa using h.runnable) (by simpa using h.disciplined) (hs ▸ hb))

/-- A wait that reads `n` levels other than its target and then the target, below the ceiling: each of the `n`
polls adds its read and its delay before the last read (42_sampler.md R140, R141). -/
theorem InFlight.run_wait (h : InFlight p k b s) (hb : ph ≠ .idle)
    (hrow : ∀ t, t.phase = ph → sequencerStep t = samplerStep target (reason t) exit t) (hs : s.phase = ph)
    (hl : l ≠ target) {n : Nat} {rest : List Level} (hc : s.c = some c) (hn : c + n < p.timeout)
    (hline : s.line = List.replicate n l ++ target :: rest) :
    run (2 * n + 1) s = .next (exit (State.performed
      (pollEvents s.params.samplerTickUs l n ++ [.evRead target])
      { s with c := some (c + n), line := rest, draws := s.draws + (n + 1) })) := by
  have hcount := readC_of_some hc
  induction n generalizing s c with
  | zero =>
    have hnext : s.nextLevel = target := by simp [State.nextLevel, hline]
    rw [h.run_succ (hs ▸ hb), hrow s hs, samplerStep_match h.tickDue (by rw [h.params]; omega) hnext,
      afterRead_eq_performed hnext, run_zero, hline, show some (c + 0) = s.c from hc.symm]
    rfl
  | succ n ih =>
    have hnext : s.nextLevel = l := by simp [State.nextLevel, hline, List.replicate_succ]
    have htail : s.line.tail = List.replicate n l ++ target :: rest := by simp [hline, List.replicate_succ]
    have hpoll := h.run_poll hb hrow hs (by omega) (hnext ▸ hl)
    have hpolled : s.pollTick.c = some (c + 1) := by simp [hcount]
    have hrest := ih h.pollTick hs hpolled (by omega) htail (readC_of_some hpolled)
    rw [show 2 * (n + 1) + 1 = 2 + (2 * n + 1) by omega, run_trans hpoll hrest,
      pollTick_eq_performed h.tickDue hc hnext]
    simp [State.performed, State.readPin, Nat.add_comm, Nat.add_left_comm]

end Wait

/-- The wake pulse and the release take one step for each of their five calls (41_line_controller.md R122,
R123). -/
theorem InFlight.run_wakePulseAndRelease (h : InFlight p k b s) (hs : s.phase = .uWakeMode) :
    run 5 s = .next
      (State.performed [.evMode .output, .evWrite .low, .evDelay 1000, .evMode .input, .evDelay 10]
        { s with dir := some .input, outLevel := some .low, phase := .uAckLow, c := some 0 }) := by
  have hdrive := (h.setMode .output).goto .uWakeDrive
  have hhold := (hdrive.lineWrite .low).goto .uWakeHold
  have hrel := (hhold.delay wakeUs).goto .uRelMode
  have hsettle := (hrel.setMode .input).goto .uRelSettle
  rw [h.run_succ (by simp [hs]), sequencerStep_uWakeMode hs, hdrive.run_succ nofun, sequencerStep_uWakeDrive rfl,
    hhold.run_succ nofun, sequencerStep_uWakeHold rfl, hrel.run_succ nofun, sequencerStep_uRelMode rfl,
    hsettle.run_succ nofun, sequencerStep_uRelSettle rfl, run_zero]
  simp [State.performed, State.setMode, State.lineWrite, State.delay, State.record, State.goto,
    State.enterSampler, State.readPin, wakeUs, settleUs]

/-- The two waits of `Ack` and the start of the frame (41_line_controller.md R124). -/
theorem InFlight.run_ack (h : InFlight p k b s) (hs : s.phase = .uAckLow) (hc : s.c = some 0) {m n : Nat}
    {rest : List Level} (hm : m < p.timeout) (hn : n < p.timeout)
    (hline : s.line = List.replicate m .high ++ .low :: (List.replicate n .low ++ .high :: rest)) :
    run (2 * m + 1 + (2 * n + 1)) s = .next
      (State.performed
        (pollEvents s.params.samplerTickUs .high m ++ [.evRead .low] ++
          pollEvents s.params.samplerTickUs .low n ++ [.evRead .high])
        { s with phase := .bLow, c := some 0, byteIdx := some 0, bitIdx := some 0, acc := some 0, line := rest,
                 draws := s.draws + (m + n + 2) }) := by
  have hlow := h.run_wait (ph := .uAckLow) nofun (fun _ => sequencerStep_uAckLow) hs (l := .high) nofun hc
    (by omega) hline
  refine (run_trans hlow (InFlight.run_wait (by exact h.congr rfl rfl rfl rfl rfl rfl) (ph := .uAckHigh) nofun
    (fun _ => sequencerStep_uAckHigh) rfl (l := .low) (n := n) nofun (c := 0) rfl (by omega) rfl)).trans ?_
  have hdraws : s.draws + (m + 1) + (n + 1) = s.draws + (m + n + 2) := by omega
  simp [State.performed, State.enterSampler, State.startFrame, State.readPin, hdraws]

/-- The handshake: the wait of `IdleCheck` (41_line_controller.md R121), the pulse, the release and `Ack`. -/
theorem InFlight.run_handshake (h : InFlight p k b s) (hs : s.phase = .uIdleWait) (hc : s.c = some 0)
    {i m n : Nat} {rest : List Level} (hi : i < p.timeout) (hm : m < p.timeout) (hn : n < p.timeout)
    (hline : s.line = handshakeLevels i m n ++ rest) :
    run (2 * (i + m + n) + 8) s = .next
      (State.performed
        (pollEvents s.params.samplerTickUs .low i ++
          [.evRead .high, .evMode .output, .evWrite .low, .evDelay 1000, .evMode .input, .evDelay 10] ++
          pollEvents s.params.samplerTickUs .high m ++ [.evRead .low] ++
          pollEvents s.params.samplerTickUs .low n ++ [.evRead .high])
        { s with dir := some .input, outLevel := some .low, phase := .bLow, c := some 0, byteIdx := some 0,
                 bitIdx := some 0, acc := some 0, line := rest, draws := s.draws + (i + m + n + 3) }) := by
  have hcount : 2 * (i + m + n) + 8 = 2 * i + 1 + (5 + (2 * m + 1 + (2 * n + 1))) := by omega
  simp only [handshakeLevels, List.append_assoc, List.cons_append, List.nil_append] at hline
  have hidle := h.run_wait (ph := .uIdleWait) nofun (fun _ => sequencerStep_uIdleWait) hs (l := .low) nofun hc
    (by omega) hline
  rw [hcount]
  refine (run_trans hidle (run_trans
    (InFlight.run_wakePulseAndRelease (by exact h.congr rfl rfl rfl rfl rfl rfl) rfl)
    (InFlight.run_ack (by exact h.congr rfl rfl rfl rfl rfl rfl) rfl rfl hm hn rfl))).trans ?_
  have hdraws : s.draws + (i + 1) + (m + n + 2) = s.draws + (i + m + n + 3) := by omega
  simp [State.performed, State.goto, State.readPin, hdraws]

end Handshake

/-- Settles O51: an accepted UPDATE is at its idle wait with C at 0, and the handshake goes on from there. -/
theorem handshakeEventsInOrder : Obligations.HandshakeEventsInOrder := by
  intro s i l h rest hr ht hh hd hi hl hhigh hline
  have hs : InFlight s.params s.byteIdx s.bitIdx s :=
    ⟨runnable_iff.mpr (ready_iff.mp hr).1, hd, ht, rfl, rfl, rfl⟩
  have haccepted : InFlight s.params s.byteIdx s.bitIdx
      { s with abort := some .noAbort, phase := .uIdleWait, c := some 0 } := hs.congr rfl rfl rfl rfl rfl rfl
  exact ⟨_, updateIsAccepted s hr hh, haccepted.run_handshake rfl rfl hi hl hhigh hline⟩

end Sys2Proof.Machine

namespace Sys2Proof.Machine

/-! ### The sampler's timeout (42_sampler.md R142, R143) -/

/-- The row of each sampler phase is a sampler's, and the exit it takes on a match delivers no response. -/
theorem exists_samplerStep_of_samples {s : State} (hp : s.phase.samples = true) :
    ∃ target reason exit, sequencerStep s = samplerStep target reason exit s ∧
      ∀ t : State, (exit t).responses = t.responses := by
  cases h : s.phase with
  | uIdleWait => exact ⟨_, _, _, sequencerStep_uIdleWait h, fun _ => rfl⟩
  | uAckLow => exact ⟨_, _, _, sequencerStep_uAckLow h, fun _ => rfl⟩
  | uAckHigh => exact ⟨_, _, _, sequencerStep_uAckHigh h, fun _ => rfl⟩
  | bLow => exact ⟨_, _, _, sequencerStep_bLow h, fun _ => rfl⟩
  | bHigh => exact ⟨_, _, _, sequencerStep_bHigh h, fun _ => rfl⟩
  | _ => simp [h, Phase.samples] at hp

/-- A sampler row responds only by its timeout. -/
theorem samplerStep_responses {target : Level} {reason : Abort} {exit : State → State} {s : State}
    (hexit : ∀ t : State, (exit t).responses = t.responses) :
    (samplerStep target reason exit s).responses =
      if s.params.timeout ≤ s.readC ∧ s.tickDue = false then s.responses ++ [.updateResult false]
      else s.responses := by
  obtain ⟨ht, e⟩ | ⟨_, hc, _, e⟩ | ⟨_, hc, _, e⟩ | ⟨ht, hc, e⟩ := samplerStep_cases target reason exit s
  · simp [e, ht]
  · simp [e, hexit, Nat.not_le_of_lt hc]
  · simp [e, Nat.not_le_of_lt hc]
  · simp [e, ht, hc]

/-- Settles O26: with C at most TIMEOUT, the one responding row is the one at the ceiling with no tick due. -/
theorem timeoutIsDeclaredOnlyAtTheCeiling : Obligations.TimeoutIsDeclaredOnlyAtTheCeiling := by
  intro s n hp hc hn
  obtain ⟨target, reason, exit, hrow, hexit⟩ := exists_samplerStep_of_samples hp
  have hresponses : (sequencerStep s).responses =
      if n = s.params.timeout ∧ s.tickDue = false then s.responses ++ [.updateResult false]
      else s.responses := by
    simp only [hrow, samplerStep_responses hexit, readC_of_some hc, hn.ge_iff_eq]
  rw [hresponses]
  refine ⟨by simp, fun hbelow => if_neg ?_⟩
  rintro ⟨rfl, ht⟩
  simp [ht] at hbelow

/-! ### The polls of `WaitForPin` (42_sampler.md R140-R142) -/

/-- The state of `WaitForPin` after `n` polls that went on: `n` reads, each followed by its tick. -/
def State.polled (n : Nat) (s : State) : State :=
  State.performed
    ((List.range n).flatMap fun j => [Event.evRead (s.answer j), Event.evDelay s.params.samplerTickUs])
    { s with c := some n, line := s.line.drop n, draws := s.draws + n }

section Polled

variable {s : State} {target : Level}

theorem waitForPin_eq_waitLoop_polled :
    waitForPin target s = waitLoop target s.params.timeout (s.polled 0) := by
  simp [waitForPin, State.polled, State.performed]

@[simp] theorem nextLevel_polled (n : Nat) : (s.polled n).nextLevel = s.answer n := by
  simp [nextLevel_eq_answer, State.answer, State.polled, State.performed, State.readPin]

/-- One more poll that goes on is its read, counted, and its delay. -/
theorem polled_succ (n : Nat) : s.polled (n + 1) =
    State.delay (s.polled n).params.samplerTickUs
      { (s.polled n).afterRead with c := some ((s.polled n).readC + 1) } := by
  have hcount : (s.polled n).readC = n := readC_of_some rfl
  rw [afterRead_eq_performed (nextLevel_polled n), hcount]
  simp [State.polled, State.delay, State.record, State.performed, State.readPin, List.range_succ, Nat.add_assoc]

/-- The loop goes on through polls that all differ from the target. -/
theorem waitLoop_polled_of_mismatches {k : Nat} (h : ∀ j < k, s.answer j ≠ target) (n : Nat) :
    waitLoop target (k + n) (s.polled 0) = waitLoop target n (s.polled k) := by
  induction k generalizing n with
  | zero => rw [Nat.zero_add]
  | succ k ih =>
    have hl : (s.polled k).nextLevel ≠ target := by
      rw [nextLevel_polled]
      exact h k k.lt_succ_self
    rw [Nat.add_right_comm, Nat.add_assoc, ih (fun j hj => h j (hj.trans k.lt_succ_self)), waitLoop, if_neg hl,
      polled_succ]

/-- The first match, below the ceiling, ends `WaitForPin` with its read. -/
theorem waitForPin_of_first_match {k : Nat} (hk : k < s.params.timeout) (hmatch : s.answer k = target)
    (hfirst : ∀ j < k, s.answer j ≠ target) : waitForPin target s = (true, (s.polled k).afterRead) := by
  obtain ⟨n, hn⟩ := Nat.exists_eq_add_of_lt hk
  rw [waitForPin_eq_waitLoop_polled, hn, Nat.add_assoc, waitLoop_polled_of_mismatches hfirst,
    waitLoop_match ((nextLevel_polled k).trans hmatch)]

/-- TIMEOUT mismatching reads end `WaitForPin` without a further read. -/
theorem waitForPin_of_no_match (h : ∀ k < s.params.timeout, s.answer k ≠ target) :
    waitForPin target s = (false, s.polled s.params.timeout) := by
  rw [waitForPin_eq_waitLoop_polled]
  exact waitLoop_polled_of_mismatches h 0

/-- `WaitForPin`'s success exit as the calls it made. -/
theorem afterRead_polled {k : Nat} (hmatch : s.answer k = target) :
    (s.polled k).afterRead = State.performed
      (((List.range k).flatMap fun j =>
          [Event.evRead (s.answer j), Event.evDelay s.params.samplerTickUs]) ++ [.evRead target])
      { s with c := some k, line := s.line.drop (k + 1), draws := s.draws + (k + 1) } := by
  rw [afterRead_eq_performed ((nextLevel_polled k).trans hmatch)]
  simp [State.polled, State.performed, State.readPin, Nat.add_assoc]

/-- R141: a match among the first TIMEOUT reads, which has a first one, decides the return value. -/
theorem waitForPin_eq_true_iff :
    (waitForPin target s).1 = true ↔ ∃ k, k < s.params.timeout ∧ s.answer k = target := by
  refine ⟨fun htrue => ?_, fun h => ?_⟩
  · by_contra hnone
    rw [waitForPin_of_no_match fun k hk hmatch => hnone ⟨k, hk, hmatch⟩] at htrue
    cases htrue
  · obtain ⟨hk, hmatch⟩ := Nat.find_spec h
    have hfirst : ∀ j < Nat.find h, s.answer j ≠ target :=
      fun j hj hm => Nat.find_min h hj ⟨hj.trans hk, hm⟩
    rw [waitForPin_of_first_match hk hmatch hfirst]

end Polled

/-- Settles O40: the loop passes the mismatching polls and ends with the read that matches. -/
theorem waitForPinSucceedsOnTheFirstMatch : Obligations.WaitForPinSucceedsOnTheFirstMatch :=
  fun _ _ => ⟨waitForPin_eq_true_iff, fun _ hk hmatch hfirst =>
    (waitForPin_of_first_match hk hmatch hfirst).trans (congrArg _ (afterRead_polled hmatch))⟩

/-- Settles O41: no match among the first TIMEOUT reads is the other return value, after all the polls. -/
theorem waitForPinTimesOutAtTheCeiling : Obligations.WaitForPinTimesOutAtTheCeiling := by
  refine fun target s => ⟨?_, waitForPin_of_no_match⟩
  rw [← Bool.not_eq_true, waitForPin_eq_true_iff]
  simp

end Sys2Proof.Machine

namespace Sys2Proof.Machine

/-! ### One bit: its value and its place (43_bit_decoder.md R162, R163) -/

theorem classify_eq_true_iff {d : Nat} : classify d = true ↔ 4 ≤ d := decide_eq_true_iff

theorem classify_eq_false_iff {d : Nat} : classify d = false ↔ d ≤ 3 := by
  rw [← Bool.not_eq_true, classify_eq_true_iff]
  omega

/-- Settles O33: more than 3 counted polls are 4 or more. -/
theorem classifyThreshold : Obligations.ClassifyThreshold := fun _ =>
  ⟨classify_eq_true_iff, classify_eq_false_iff⟩

/-- Writing one bit of a byte: the mask has that bit alone. -/
theorem getLsbD_setBit (v : Byte) (n : Nat) (b : Bool) {j : Nat} (hj : j < 8) :
    (setBit v n b).getLsbD j = if j = n then b else v.getLsbD j := by
  have hmask : (1#8 <<< n).getLsbD j = decide (n = j) := by
    rw [← BitVec.twoPow_eq, BitVec.getLsbD_twoPow]
    by_cases h : n = j
    · simp [h, hj]
    · simp [h]
  cases b with
  | true =>
    rw [setBit, if_pos rfl, BitVec.getLsbD_or, hmask]
    by_cases h : j = n
    · simp [h]
    · simp [h, Ne.symm h]
  | false =>
    rw [setBit, if_neg Bool.false_ne_true, BitVec.getLsbD_and, BitVec.getLsbD_not, hmask]
    by_cases h : j = n
    · simp [h]
    · simp [h, Ne.symm h, hj]

/-- Settles O39: the position of index `i` is 7 - i, and only the bit there is written. -/
theorem bitLandsAtItsPosition : Obligations.BitLandsAtItsPosition := fun v i b _ hj =>
  getLsbD_setBit v (bitPosition i) b hj

/-! ### The polls of `MeasureHigh` (43_bit_decoder.md R160, R161, R167) -/

/-- The state of `MeasureHigh` after `n` HIGH polls: `n` reads, each followed by its tick. -/
def State.measured (n : Nat) (s : State) : State :=
  State.performed
    ((List.range n).flatMap fun _ => [Event.evRead .high, Event.evDelay s.params.durationTickUs])
    { s with d := some n, line := s.line.drop n, draws := s.draws + n }

section Measured

variable {s : State}

theorem measureHigh_eq_measureLoop_measured :
    measureHigh s = measureLoop (fineTimeout s.params) (s.measured 0) := by
  simp [measureHigh, State.measured, State.performed]

@[simp] theorem nextLevel_measured (n : Nat) : (s.measured n).nextLevel = s.answer n := by
  simp [nextLevel_eq_answer, State.answer, State.measured, State.performed, State.readPin]

/-- One read more after `n` HIGH polls, as the calls made. -/
theorem afterRead_measured {n : Nat} {l : Level} (hl : s.answer n = l) :
    (s.measured n).afterRead = State.performed
      (((List.range n).flatMap fun _ => [Event.evRead .high, Event.evDelay s.params.durationTickUs]) ++
        [.evRead l])
      { s with d := some n, line := s.line.drop (n + 1), draws := s.draws + (n + 1) } := by
  rw [afterRead_eq_performed ((nextLevel_measured n).trans hl)]
  simp [State.measured, State.performed, State.readPin, Nat.add_assoc]

/-- One more HIGH poll is its read, counted, and its delay. -/
theorem measured_succ {n : Nat} (hhigh : s.answer n = .high) : s.measured (n + 1) =
    State.delay (s.measured n).params.durationTickUs
      { (s.measured n).afterRead with d := some ((s.measured n).readD + 1) } := by
  have hcount : (s.measured n).readD = n := readD_of_some rfl
  rw [afterRead_measured hhigh, hcount]
  simp [State.measured, State.delay, State.record, State.performed, State.readPin, List.range_succ]

/-- The loop goes on through polls that all read HIGH. -/
theorem measureLoop_measured_of_highs {k : Nat} (h : ∀ j < k, s.answer j = .high) (n : Nat) :
    measureLoop (k + n) (s.measured 0) = measureLoop n (s.measured k) := by
  induction k generalizing n with
  | zero => rw [Nat.zero_add]
  | succ k ih =>
    have hhigh : s.answer k = .high := h k k.lt_succ_self
    rw [Nat.add_right_comm, Nat.add_assoc, ih (fun j hj => h j (hj.trans k.lt_succ_self)), measured_succ hhigh]
    simp [measureLoop, hhigh]

/-- The first LOW, below the fine ceiling, ends `MeasureHigh` with its read. -/
theorem measureHigh_of_first_low {k : Nat} (hk : k < fineTimeout s.params)
    (hhigh : ∀ j < k, s.answer j = .high) (hlow : s.answer k = .low) :
    measureHigh s = (some k, (s.measured k).afterRead) := by
  obtain ⟨n, hn⟩ := Nat.exists_eq_add_of_lt hk
  have hcount : (s.measured k).readD = k := readD_of_some rfl
  rw [measureHigh_eq_measureLoop_measured, hn, Nat.add_assoc, measureLoop_measured_of_highs hhigh,
    measureLoop_low ((nextLevel_measured k).trans hlow), hcount]

/-- FINE_TIMEOUT reads of HIGH end `MeasureHigh` without a further read. -/
theorem measureHigh_of_all_high (h : ∀ j < fineTimeout s.params, s.answer j = .high) :
    measureHigh s = (none, s.measured (fineTimeout s.params)) := by
  rw [measureHigh_eq_measureLoop_measured]
  exact measureLoop_measured_of_highs h 0

/-- The first FINE_TIMEOUT answers are all HIGH, or there is a first LOW among them. -/
theorem all_high_or_exists_first_low (s : State) (n : Nat) :
    (∀ j < n, s.answer j = .high) ∨
      ∃ k, k < n ∧ (∀ j < k, s.answer j = .high) ∧ s.answer k = .low := by
  induction n with
  | zero => exact .inl nofun
  | succ n ih =>
    obtain hall | ⟨k, hk, hfirst⟩ := ih
    · cases hl : s.answer n with
      | high => exact .inl fun j hj => (Nat.lt_succ_iff_lt_or_eq.mp hj).elim (hall j) fun e => e ▸ hl
      | low => exact .inr ⟨n, n.lt_succ_self, hall, hl⟩
    · exact .inr ⟨k, hk.trans n.lt_succ_self, hfirst⟩

theorem measureHigh_eq_none_iff :
    (measureHigh s).1 = none ↔ ∀ j < fineTimeout s.params, s.answer j = .high := by
  refine ⟨fun hnone => ?_, fun h => congrArg Prod.fst (measureHigh_of_all_high h)⟩
  obtain hall | ⟨k, hk, hhigh, hlow⟩ := all_high_or_exists_first_low s (fineTimeout s.params)
  · exact hall
  · simp [measureHigh_of_first_low hk hhigh hlow] at hnone

theorem measureHigh_eq_some_iff {n : Nat} :
    (measureHigh s).1 = some n ↔
      n < fineTimeout s.params ∧ (∀ j < n, s.answer j = .high) ∧ s.answer n = .low := by
  refine ⟨fun hsome => ?_, fun ⟨hn, hhigh, hlow⟩ => congrArg Prod.fst (measureHigh_of_first_low hn hhigh hlow)⟩
  obtain hall | ⟨k, hk, hhigh, hlow⟩ := all_high_or_exists_first_low s (fineTimeout s.params)
  · simp [measureHigh_of_all_high hall] at hsome
  · obtain rfl : k = n := by simpa [measureHigh_of_first_low hk hhigh hlow] using hsome
    exact ⟨hk, hhigh, hlow⟩

end Measured

/-- Settles O42: the first LOW among the first FINE_TIMEOUT answers, or its absence, decides the outcome. -/
theorem measureHighOutcomes : Obligations.MeasureHighOutcomes := by
  refine fun s => ⟨fun n => measureHigh_eq_some_iff, measureHigh_eq_none_iff, fun n hsome => ?_, fun hnone => ?_⟩
  · obtain ⟨hn, hhigh, hlow⟩ := measureHigh_eq_some_iff.mp hsome
    rw [measureHigh_of_first_low hn hhigh hlow]
    exact afterRead_measured hlow
  · rw [measureHigh_of_all_high (measureHigh_eq_none_iff.mp hnone)]
    rfl

/-- Settles O34: a 1 bit needs 4 HIGH polls below the fine ceiling, the tenth part of TIMEOUT. -/
theorem oneBitsNeedAFineCeilingOfFive : Obligations.OneBitsNeedAFineCeilingOfFive := by
  refine fun s => ⟨fun n hsome hone => ?_, fun _ hshort hhigh => ?_⟩
  · have hlt : n < s.params.timeout / 10 := (measureHigh_eq_some_iff.mp hsome).1
    have hfour : 4 ≤ n := classify_eq_true_iff.mp hone
    omega
  · have hfine : fineTimeout s.params ≤ 4 := by
      unfold fineTimeout
      omega
    exact measureHigh_eq_none_iff.mpr fun j hj => hhigh j (hj.trans_le hfine)

/-! ### The machine's steps of one bit (43_bit_decoder.md R160, R164, R166) -/

/-- A HIGH poll, as the two calls it makes. -/
theorem highTick_eq_performed {s : State} {n : Nat} (ht : s.tickDue = false) (hd : s.d = some n)
    (hl : s.nextLevel = .high) :
    s.highTick = State.performed [.evRead .high, .evDelay s.params.durationTickUs]
      { s with line := s.line.tail, draws := s.draws + 1, d := some (n + 1) } := by
  rw [← hl, ← readD_of_some hd]
  refine Eq.trans ?_ (performed_performed [.evRead s.nextLevel] [.evDelay s.params.durationTickUs] _)
  cases s
  cases ht
  rfl

/-- The second step of a HIGH poll is the tick that its read left due. -/
theorem sequencerStep_countHigh {s : State} (hp : s.phase = .bMeasure) :
    sequencerStep s.countHigh = s.highTick := by
  rw [sequencerStep_bMeasure (s := s.countHigh) hp, stepMeasure_tick rfl, State.countHigh_params]

/-- Settles O30: the first of the two steps is the counted read and the second the tick that it left due. -/
theorem measureCountsHighPolls : Obligations.MeasureCountsHighPolls := by
  intro s hp
  rw [sequencerStep_bMeasure hp]
  refine ⟨stepMeasure_tick, fun n ht hd => ⟨fun hn hl => ?_, fun hn k i hk hi => ?_⟩⟩
  · rw [stepMeasure_high ht (by rwa [readD_of_some hd]) hl, sequencerStep_countHigh hp]
    refine ⟨?_, highTick_eq_performed ht hd hl⟩
    rw [← hl, ← readD_of_some hd]
    rfl
  · rw [stepMeasure_timeout ht (by simp [readD_of_some hd, hn]), readByteIdx_of_some hk, readBitIdx_of_some hi]

section Bit

variable {p : Parameters} {k : Option (Fin 5)} {i : Option (Fin 8)} {s : State}

/-- A HIGH poll of a measurement takes two steps (43_bit_decoder.md R160; log entry 7). -/
theorem InFlight.run_highPoll (h : InFlight p k i s) (hs : s.phase = .bMeasure)
    (hd : s.readD < fineTimeout p) (hl : s.nextLevel = .high) : run 2 s = .next s.highTick := by
  have hcount : sequencerStep s = s.countHigh := by
    rw [sequencerStep_bMeasure hs, stepMeasure_high h.tickDue (h.params ▸ hd) hl]
  rw [h.run_succ (by simp [hs]), hcount, ← sequencerStep_countHigh hs]
  exact run_one (step_in_flight (by simpa using h.runnable) (by simpa using h.disciplined) (by simp [hs]))

/-- A measurement that reads `n` levels HIGH and then LOW, below the fine ceiling (43_bit_decoder.md R161). -/
theorem InFlight.run_measure (h : InFlight p k i s) (hs : s.phase = .bMeasure) {q n : Nat} {rest : List Level}
    (hd : s.d = some q) (hn : q + n < fineTimeout p) (hline : s.line = List.replicate n .high ++ .low :: rest) :
    run (2 * n + 1) s = .next (State.bitDone (State.performed
      (pollEvents s.params.durationTickUs .high n ++ [.evRead .low])
      { s with d := some (q + n), line := rest, draws := s.draws + (n + 1) })) := by
  have hcount := readD_of_some hd
  induction n generalizing s q with
  | zero =>
    have hnext : s.nextLevel = .low := by simp [State.nextLevel, hline]
    rw [h.run_succ (by simp [hs]), sequencerStep_bMeasure hs,
      stepMeasure_low h.tickDue (by rw [h.params]; omega) hnext, afterRead_eq_performed hnext, run_zero, hline,
      show some (q + 0) = s.d from hd.symm]
    rfl
  | succ n ih =>
    have hnext : s.nextLevel = .high := by simp [State.nextLevel, hline, List.replicate_succ]
    have htail : s.line.tail = List.replicate n .high ++ .low :: rest := by simp [hline, List.replicate_succ]
    have hpoll := h.run_highPoll hs (by omega) hnext
    have hpolled : s.highTick.d = some (q + 1) := by simp [hcount]
    have hrest := ih h.highTick (by simpa using hs) hpolled (by omega) htail (readD_of_some hpolled)
    rw [show 2 * (n + 1) + 1 = 2 + (2 * n + 1) by omega, run_trans hpoll hrest,
      highTick_eq_performed h.tickDue hd hnext]
    simp [State.performed, State.readPin, Nat.add_comm, Nat.add_left_comm]

/-- The events of a bit received with timing `tm` (43_bit_decoder.md R166). -/
def bitEvents (p : Parameters) (tm : BitTiming) : List Event :=
  pollEvents p.samplerTickUs .high tm.a ++ [.evRead .low] ++ (pollEvents p.samplerTickUs .low tm.b ++
    [.evRead .high] ++ (pollEvents p.durationTickUs .high tm.d ++ [.evRead .low]))

/-- The state after the reads of a bit, before it is placed. -/
def State.bitRead (tm : BitTiming) (rest : List Level) (s : State) : State :=
  State.performed (bitEvents s.params tm)
    { s with phase := .bMeasure, c := some tm.b, d := some tm.d, line := rest,
             draws := s.draws + (tm.a + tm.b + tm.d + 3) }

/-- A bit received within the ceilings: the two waits and the measurement (43_bit_decoder.md R164). -/
theorem InFlight.run_bit (h : InFlight p k i s) (hs : s.phase = .bLow) (hc : s.c = some 0) {tm : BitTiming}
    {rest : List Level} (ha : tm.a < p.timeout) (hb : tm.b < p.timeout) (hd : tm.d < fineTimeout p)
    (hline : s.line = bitLevels tm ++ rest) :
    run (2 * (tm.a + tm.b + tm.d) + 3) s = .next (s.bitRead tm rest).bitDone := by
  have hcount : 2 * (tm.a + tm.b + tm.d) + 3 = 2 * tm.a + 1 + (2 * tm.b + 1 + (2 * tm.d + 1)) := by omega
  simp only [bitLevels, List.append_assoc, List.cons_append, List.nil_append] at hline
  have hlow := h.run_wait (ph := .bLow) nofun (fun _ => sequencerStep_bLow) hs (l := .high) nofun hc (by omega)
    hline
  rw [hcount]
  refine (run_trans hlow (run_trans
    (InFlight.run_wait (by exact h.congr rfl rfl rfl rfl rfl rfl) (ph := .bHigh) nofun
      (fun _ => sequencerStep_bHigh) rfl (l := .low) nofun (c := 0) rfl (by omega) rfl)
    (InFlight.run_measure (by exact h.congr rfl rfl rfl rfl rfl rfl) rfl (q := 0) rfl (by omega) rfl))).trans ?_
  have hdraws : s.draws + (tm.a + 1) + (tm.b + 1) + (tm.d + 1) = s.draws + (tm.a + tm.b + tm.d + 3) := by omega
  simp [State.bitRead, bitEvents, State.performed, State.enterSampler, State.enterMeasure, State.readPin, hdraws]

end Bit

/-! #### Reads and delays counted (43_bit_decoder.md R166) -/

@[simp] theorem readCount_append (es fs : List Event) : readCount (es ++ fs) = readCount es + readCount fs :=
  List.countP_append

@[simp] theorem delayCount_append (es fs : List Event) : delayCount (es ++ fs) = delayCount es + delayCount fs :=
  List.countP_append

@[simp] theorem readCount_pollEvents (us : Nat) (l : Level) (n : Nat) : readCount (pollEvents us l n) = n := by
  induction n with
  | zero => rfl
  | succ n ih =>
    rw [pollEvents_succ]
    refine (readCount_append [.evRead l, .evDelay us] (pollEvents us l n)).trans ?_
    rw [ih]
    exact Nat.add_comm 1 n

@[simp] theorem delayCount_pollEvents (us : Nat) (l : Level) (n : Nat) : delayCount (pollEvents us l n) = n := by
  induction n with
  | zero => rfl
  | succ n ih =>
    rw [pollEvents_succ]
    refine (delayCount_append [.evRead l, .evDelay us] (pollEvents us l n)).trans ?_
    rw [ih]
    exact Nat.add_comm 1 n

theorem readCount_bitEvents (p : Parameters) (tm : BitTiming) :
    readCount (bitEvents p tm) = tm.a + tm.b + tm.d + 3 := by
  have hone (l : Level) : readCount [.evRead l] = 1 := rfl
  simp only [bitEvents, readCount_append, readCount_pollEvents, hone]
  omega

theorem delayCount_bitEvents (p : Parameters) (tm : BitTiming) :
    delayCount (bitEvents p tm) = tm.a + tm.b + tm.d := by
  have hnone (l : Level) : delayCount [.evRead l] = 0 := rfl
  simp only [bitEvents, delayCount_append, delayCount_pollEvents, hnone]
  omega

/-! #### Where the bit lands -/

/-- Placing a bit makes no call and delivers nothing. -/
theorem bitDone_frame (s : State) :
    s.bitDone.line = s.line ∧ s.bitDone.tickDue = s.tickDue ∧ s.bitDone.events = s.events ∧
      s.bitDone.responses = s.responses ∧ s.bitDone.fault = s.fault := by
  obtain ⟨_, e⟩ | ⟨_, _, e⟩ | ⟨_, _, e⟩ := bitDone_cases s
  · exact e ▸ ⟨rfl, rfl, rfl, rfl, rfl⟩
  · exact e ▸ ⟨rfl, rfl, rfl, rfl, rfl⟩
  · exact e ▸ ⟨rfl, rfl, rfl, rfl, rfl⟩

/-- The accumulator with the measured bit placed, read off the elements that hold it. -/
theorem placedAcc_of_some {s : State} {v : Byte} {i : Fin 8} {n : Nat} (hv : s.acc = some v)
    (hi : s.bitIdx = some i) (hd : s.d = some n) : s.placedAcc = setBit v (7 - i.val) (classify n) := by
  rw [State.placedAcc, readAcc_of_some hv, readBitIdx_of_some hi, readD_of_some hd]
  rfl

/-- A bit that is not its byte's last (10_state.md R35). -/
theorem bitDone_eq_of_lt {s : State} {i : Fin 8} (hi : s.bitIdx = some i) (h7 : i < 7) :
    s.bitDone = State.enterSampler .bLow { s with acc := some s.placedAcc, bitIdx := some (i + 1) } := by
  rw [State.bitDone, readBitIdx_of_some hi, if_pos h7, State.nextBit, readBitIdx_of_some hi]

/-- The last bit of a byte that is not the frame's last. -/
theorem bitDone_eq_startByte {s : State} {k : Fin 5} (hi : s.bitIdx = some 7) (hk : s.byteIdx = some k)
    (h4 : k < 4) :
    s.bitDone = (State.storeByte k { s with acc := some s.placedAcc }).startByte (k + 1) :=
  (bitDone_eq_afterBit s).trans (afterBit_of_lt (u := { s with acc := some s.placedAcc }) hi hk h4)

/-- The last bit of the frame. -/
theorem bitDone_eq_goto_uCommit {s : State} (hi : s.bitIdx = some 7) (hk : s.byteIdx = some 4) :
    s.bitDone = (State.storeByte 4 { s with acc := some s.placedAcc }).goto .uCommit :=
  (bitDone_eq_afterBit s).trans (afterBit_of_last (u := { s with acc := some s.placedAcc }) hi hk)

/-- Settles O52: the reads of the bit and then one of the three rows that place it. -/
theorem bitIsReceived : Obligations.BitIsReceived := by
  intro s tm rest v k i hr hdisc hs ht hc hv hk hi hwithin hline
  obtain ⟨⟨ha, hb⟩, hd⟩ : (tm.a < s.params.timeout ∧ tm.b < s.params.timeout) ∧ tm.d < fineTimeout s.params := by
    simpa [BitTiming.within] using hwithin
  have hflight : InFlight s.params (some k) (some i) s := ⟨hr, hdisc, ht, rfl, hk, hi⟩
  obtain ⟨hrest, htick, hevents, hresponses, hfault⟩ := bitDone_frame (s.bitRead tm rest)
  have hplaced : (s.bitRead tm rest).placedAcc = setBit v (7 - i.val) (classify tm.d) :=
    placedAcc_of_some hv hi rfl
  refine ⟨_, hflight.run_bit hs hc ha hb hd hline, hrest, htick.trans ht, ?_, ?_, hresponses, hfault,
    fun h7 => ?_, fun h7 h4 => ?_, fun h7 h4 => ?_⟩
  · rw [hevents, ← readCount_bitEvents s.params]
    exact readCount_append _ _
  · rw [hevents, ← delayCount_bitEvents s.params]
    exact delayCount_append _ _
  · rw [bitDone_eq_of_lt (s := s.bitRead tm rest) hi h7, hplaced]
    exact ⟨rfl, rfl, hk, rfl, rfl, rfl⟩
  · subst h7
    rw [bitDone_eq_startByte (s := s.bitRead tm rest) hi hk h4, hplaced]
    exact ⟨rfl, rfl, rfl, rfl, rfl, rfl⟩
  · subst h7 h4
    rw [bitDone_eq_goto_uCommit (s := s.bitRead tm rest) hi hk, hplaced]
    exact ⟨rfl, rfl, rfl⟩

end Sys2Proof.Machine

namespace Sys2Proof.Machine

/-! ### The checksum and the sign (44_frame_decoder.md R184, R185, R190) -/

theorem checksum_eq_sum (b0 b1 b2 b3 : Byte) : checksum b0 b1 b2 b3 = b0 + b1 + b2 + b3 := by
  apply BitVec.eq_of_toNat_eq
  simp only [checksum, BitVec.toNat_ofNat, BitVec.toNat_add]
  omega

theorem checksumOK_eq_decide (b0 b1 b2 b3 b4 : Byte) :
    checksumOK b0 b1 b2 b3 b4 = decide (b0 + b1 + b2 + b3 = b4) := by
  rw [checksumOK, checksum_eq_sum]
  rfl

/-- Settles O35: 8-bit addition is the sum mod 256. -/
theorem checksumIsTheWrappingSum : Obligations.ChecksumIsTheWrappingSum := fun b0 b1 b2 b3 b4 => by
  rw [checksumOK_eq_decide, decide_eq_true_iff]

section Magnitude

variable {m : Nat}

theorem toNat_magnitudeWord (hm : m < 2 ^ 15) : (BitVec.ofNat 16 m).toNat = m :=
  (BitVec.toNat_ofNat m 16).trans (Nat.mod_eq_of_lt (by omega))

/-- The sign bit stands above every magnitude. -/
theorem toNat_sign_or_magnitudeWord (hm : m < 2 ^ 15) :
    (0x8000#16 ||| BitVec.ofNat 16 m).toNat = 2 ^ 15 + m := by
  rw [BitVec.toNat_or, toNat_magnitudeWord hm]
  exact (Nat.shiftLeft_add_eq_or_of_lt hm 1).symm

theorem temperatureValue_sign_or_magnitudeWord (hm : m < 2 ^ 15) :
    temperatureValue (0x8000#16 ||| BitVec.ofNat 16 m) = -(m : Int) := by
  have hsign : (0x8000#16 ||| BitVec.ofNat 16 m).getLsbD 15 = true := by simp
  rw [temperatureValue, if_pos hsign, toNat_sign_or_magnitudeWord hm]
  omega

theorem temperatureValue_magnitudeWord (hm : m < 2 ^ 15) : temperatureValue (BitVec.ofNat 16 m) = (m : Int) := by
  have hsign : (BitVec.ofNat 16 m).getLsbD 15 = false := by
    rw [BitVec.getLsbD, toNat_magnitudeWord hm, Nat.testBit_lt_two_pow hm]
  rw [temperatureValue, hsign, toNat_magnitudeWord hm, if_neg Bool.false_ne_true]
  omega

end Magnitude

/-- Settles O36: the corrected word reads as the raw one's sign and magnitude, which are `M`'s. -/
theorem signCorrectionNegatesTheMagnitude : Obligations.SignCorrectionNegatesTheMagnitude := by
  intro m hm
  have hlt : m < 2 ^ 15 := by omega
  exact ⟨(asInt16_signCorrect _).trans (temperatureValue_sign_or_magnitudeWord hlt),
    (asInt16_signCorrect _).trans (temperatureValue_magnitudeWord hlt)⟩

/-! ### The commit of a received frame (44_frame_decoder.md R182, R183, R186, R187) -/

/-- Settles O32: the assembled fields are concatenations, and the check is on the 8-bit sum. -/
theorem commitWritesTheCacheThenChecks : Obligations.CommitWritesTheCacheThenChecks := by
  intro s b0 b1 b2 b3 b4 hp hf
  obtain ⟨h0, h1, h2, h3, h4⟩ : s.readFrame 0 = b0 ∧ s.readFrame 1 = b1 ∧ s.readFrame 2 = b2 ∧
      s.readFrame 3 = b3 ∧ s.readFrame 4 = b4 := by simp [State.readFrame, hf]
  have hhumidity : s.humidityField = b0 ++ b1 := by rw [State.humidityField, h0, h1, concat16_eq_append]
  have htemperature : s.temperatureField = b2 ++ b3 := by
    rw [State.temperatureField, h2, h3, concat16_eq_append]
  have hok : s.writeCache.frameOK = decide (b0 + b1 + b2 + b3 = b4) := by
    rw [← checksumOK_eq_decide, ← h0, ← h1, ← h2, ← h3, ← h4]
    rfl
  rw [sequencerStep_uCommit hp, ← hhumidity, ← htemperature]
  by_cases hsum : b0 + b1 + b2 + b3 = b4
  · rw [State.deliverResult, hok, decide_eq_true hsum, if_pos rfl, if_pos hsum]
    rfl
  · rw [State.deliverResult, hok, decide_eq_false hsum, if_neg Bool.false_ne_true, if_neg hsum]
    rfl

/-! ### A failure before the commit (44_frame_decoder.md R181) -/

/-- The cached words and whether a commit wrote them (10_state.md R26-R28). -/
def State.cache (s : State) : Option Word16 × Option Word16 × Bool := (s.cacheT, s.cacheH, s.cacheWritten)

section KeepsCache

variable {s : State} {r : Bool × State}

theorem cache_andThen {next : State → Bool × State} (h : r.2.cache = s.cache)
    (hnext : ∀ u, (next u).2.cache = u.cache) : (andThen r next).2.cache = s.cache := by
  obtain ⟨_ | _, u⟩ := r
  · exact h
  · exact (hnext u).trans h

theorem cache_orFail {reason : State → Abort} (h : r.2.cache = s.cache) :
    (orFail reason r).2.cache = s.cache := by
  obtain ⟨_ | _, u⟩ := r
  · exact h
  · exact h

theorem cache_placed {q : Option Nat × State} (i : Fin 8) (h : q.2.cache = s.cache) :
    (placed i q).2.cache = s.cache := by
  obtain ⟨_ | n, u⟩ := q
  · exact h
  · exact h

end KeepsCache

theorem cache_waitLoop (target : Level) (n : Nat) (s : State) : (waitLoop target n s).2.cache = s.cache := by
  induction n generalizing s with
  | zero => rfl
  | succ n ih =>
    rw [waitLoop]
    split
    · rfl
    · exact ih _

theorem cache_measureLoop (n : Nat) (s : State) : (measureLoop n s).2.cache = s.cache := by
  induction n generalizing s with
  | zero => rfl
  | succ n ih =>
    rw [measureLoop]
    split
    · rfl
    · exact ih _

theorem cache_waitForPin (target : Level) (s : State) : (waitForPin target s).2.cache = s.cache :=
  cache_waitLoop target s.params.timeout { s with c := some 0 }

theorem cache_measureHigh (s : State) : (measureHigh s).2.cache = s.cache :=
  cache_measureLoop (fineTimeout s.params) { s with d := some 0 }

theorem cache_readBit (i : Fin 8) (s : State) : (readBit i s).2.cache = s.cache := by
  rw [readBit_eq]
  exact cache_andThen (cache_orFail (cache_waitForPin _ _)) fun _ =>
    cache_andThen (cache_orFail (cache_waitForPin _ _)) fun _ => cache_placed i (cache_measureHigh _)

theorem cache_readBits (is : List (Fin 8)) (s : State) : (readBits is s).2.cache = s.cache := by
  induction is generalizing s with
  | nil => rfl
  | cons i is ih =>
    rw [readBits_cons]
    exact cache_andThen (cache_readBit i s) ih

theorem cache_readByte (s : State) : (readByte s).2.cache = s.cache :=
  cache_readBits [0, 1, 2, 3, 4, 5, 6, 7] { s with acc := some 0 }

theorem cache_readBytes (ks : List (Fin 5)) (s : State) : (readBytes ks s).2.cache = s.cache := by
  induction ks generalizing s with
  | nil => rfl
  | cons k ks ih =>
    rw [readBytes_cons]
    exact cache_andThen (cache_readByte { s with byteIdx := some k }) fun u => ih (u.storeByte k)

theorem cache_ack (s : State) : (ack s).2.cache = s.cache := by
  rw [ack_eq]
  exact cache_andThen (cache_orFail (cache_waitForPin _ _)) fun _ => cache_orFail (cache_waitForPin _ _)

/-- UPDATE up to the commit leaves the cache as it was, whether it fails or not. -/
theorem cache_receive (s : State) : (receive s).2.cache = s.cache := by
  have hpulse (u : State) : (release (wakePulse u)).cache = u.cache := by
    simp [State.cache, release, wakePulse]
  have hidle : (idleCheck s).2.cache = s.cache := by
    rw [idleCheck_eq]
    exact cache_orFail (cache_waitForPin _ _)
  rw [receive]
  exact cache_andThen hidle fun u =>
    cache_andThen ((cache_ack _).trans (hpulse u)) (cache_readBytes [0, 1, 2, 3, 4])

/-- A commit records one of its two outcomes (44_frame_decoder.md R187). -/
theorem commit_abort (s : State) :
    (commit s).2.abort = some .noAbort ∨ (commit s).2.abort = some .checksumMismatch := by
  rw [commit, commitResult]
  split
  · exact .inl rfl
  · exact .inr rfl

/-- Settles O53: with neither outcome of a commit recorded, UPDATE ended in a failure of what comes before. -/
theorem failureBeforeCommitLeavesTheCache : Obligations.FailureBeforeCommitLeavesTheCache := by
  intro s
  have hcache := cache_receive { s with abort := some .noAbort }
  rw [updateCall, updateSequence_eq]
  generalize receive { s with abort := some .noAbort } = r at hcache ⊢
  obtain ⟨_ | _, u⟩ := r
  · intro _ _
    simp only [State.cache, Prod.mk.injEq] at hcache
    exact ⟨rfl, hcache⟩
  · rw [andThen_true, State.finish_abort]
    intro hok hmismatch
    exact ((commit_abort (u.goto .uCommit)).elim hok hmismatch).elim

end Sys2Proof.Machine

namespace Sys2Proof.Machine

/-! ### The bytes a waveform sends (30_encoding.md R77, R78; 44_frame_decoder.md R189) -/

/-- The bits of `v` at the indices below `n` are those of `w` (43_bit_decoder.md R163). -/
def BitsReceived (n : Nat) (v w : Byte) : Prop :=
  ∀ j : Fin 8, j < n → v.getLsbD (bitPosition j) = w.getLsbD (bitPosition j)

theorem bitPosition_lt (i : Fin 8) : bitPosition i < 8 := Nat.sub_lt_of_lt (by decide)

theorem BitsReceived.succ {v w : Byte} {i : Fin 8} (h : BitsReceived i v w) :
    BitsReceived (i + 1) (setBit v (bitPosition i) (w.getLsbD (bitPosition i))) w := by
  intro j hj
  rw [getLsbD_setBit v _ _ (bitPosition_lt j)]
  split
  · next hsame => rw [hsame]
  · next hother =>
    have hne : j ≠ i := fun e => hother (e ▸ rfl)
    exact h j (by omega)

/-- Every position of a byte is that of an index. -/
theorem BitsReceived.eq {v w : Byte} (h : BitsReceived 8 v w) : v = w := by
  refine BitVec.eq_of_getLsbD_eq fun n hn => ?_
  have hbit := h ⟨7 - n, by omega⟩ (by omega)
  rwa [show bitPosition ⟨7 - n, by omega⟩ = n by simp only [bitPosition]; omega] at hbit

/-- Storing byte `k` of `f` on top of the bytes before it. -/
theorem getElem_frame_set {frame : Vector (Option Byte) 5} {f : Fin 5 → Byte} {k : Fin 5}
    (h : ∀ j : Fin 5, j < k → frame[j] = some (f j)) (j : Fin 5) (hj : j ≤ k) :
    (frame.set k (some (f k)))[j] = some (f j) := by
  obtain hlt | rfl := lt_or_eq_of_le hj
  · have hne : (k : Nat) ≠ j := by omega
    simpa [Vector.getElem_set, hne] using h j hlt
  · simp

theorem frame_eq_bytes {frame : Vector (Option Byte) 5} {f : Fin 5 → Byte}
    (h : ∀ j : Fin 5, frame[j] = some (f j)) :
    frame = #v[some (f 0), some (f 1), some (f 2), some (f 3), some (f 4)] := by
  have hbytes : frame = Vector.ofFn fun j => some (f j) := by
    ext1 j hj
    rw [Vector.getElem_ofFn]
    exact h ⟨j, hj⟩
  rw [hbytes]
  rfl

/-- The place of one bit is the one after the other's (20_memory.md R53). -/
abbrev NextBit (a b : Fin 5 × Fin 8) : Prop :=
  (a.2 < 7 ∧ b = (a.1, a.2 + 1)) ∨ (a.2 = 7 ∧ a.1 < 4 ∧ b = (a.1 + 1, 0))

theorem bitOrder_eq_cons : bitOrder = (0, 0) :: bitOrder.tail := rfl

theorem isChain_bitOrder : bitOrder.IsChain NextBit := by decide

theorem getLast?_bitOrder : bitOrder.getLast? = some (4, 7) := rfl

/-- What the frame's bits leave as the handshake left it: the line released, the latch LOW and the responses
`rs` (41_line_controller.md R122, R123). -/
def State.released (rs : List Response) (s : State) : Prop :=
  s.dir = some .input ∧ s.outLevel = some .low ∧ s.responses = rs

/-- The core is at the bit `ki` of the frame `f`, and has received what comes before it. -/
structure Receiving (p : Parameters) (f : Fin 5 → Byte) (rs : List Response) (ki : Fin 5 × Fin 8) (s : State) :
    Prop where
  flight : InFlight p (some ki.1) (some ki.2) s
  phase : s.phase = .bLow
  c : s.c = some 0
  bits : ∃ v, s.acc = some v ∧ BitsReceived ki.2 v (f ki.1)
  bytes : ∀ j : Fin 5, j < ki.1 → s.frame[j] = some (f j)
  released : s.released rs

/-- The core has received the frame `f` and is at its commit. -/
structure Received (p : Parameters) (f : Fin 5 → Byte) (rs : List Response) (s : State) : Prop where
  flight : InFlight p (some 4) (some 7) s
  phase : s.phase = .uCommit
  bytes : ∀ j : Fin 5, s.frame[j] = some (f j)
  released : s.released rs

section Waveform

variable {p : Parameters} {f : Fin 5 → Byte} {rs : List Response} {k : Fin 5} {i : Fin 8} {s : State}
  {tm : BitTiming} {rest : List Level}

/-- The bit that the line sent is placed where `f` has it. -/
theorem Receiving.placedAcc_bitRead (h : Receiving p f rs (k, i) s)
    (hbit : classify tm.d = (f k).getLsbD (bitPosition i)) :
    BitsReceived (i + 1) (s.bitRead tm rest).placedAcc (f k) := by
  obtain ⟨v, hv, hbits⟩ := h.bits
  rw [placedAcc_of_some (s := s.bitRead tm rest) hv h.flight.bitIdx rfl, hbit]
  exact hbits.succ

/-- The last bit of a byte makes it `f`'s. -/
theorem Receiving.placedAcc_eq_byte (h : Receiving p f rs (k, 7) s)
    (hbit : classify tm.d = (f k).getLsbD (bitPosition 7)) : (s.bitRead tm rest).placedAcc = f k :=
  (h.placedAcc_bitRead hbit).eq

/-- A bit that is not the frame's last leads to the next one. -/
theorem Receiving.bitDone_next {kj : Fin 5 × Fin 8} (h : Receiving p f rs (k, i) s) (hnext : NextBit (k, i) kj)
    (hbit : classify tm.d = (f k).getLsbD (bitPosition i)) :
    Receiving p f rs kj (s.bitRead tm rest).bitDone := by
  obtain ⟨hi : i < 7, rfl⟩ | ⟨rfl, hk : k < 4, rfl⟩ := hnext
  · have hsucc : (i + 1).val = i.val + 1 := by omega
    rw [bitDone_eq_of_lt (s := s.bitRead tm rest) h.flight.bitIdx hi]
    exact ⟨⟨h.flight.runnable, h.flight.disciplined, h.flight.tickDue, h.flight.params, h.flight.byteIdx, rfl⟩,
      rfl, rfl, ⟨_, rfl, hsucc ▸ h.placedAcc_bitRead hbit⟩, h.bytes, h.released⟩
  · rw [bitDone_eq_startByte (s := s.bitRead tm rest) h.flight.bitIdx h.flight.byteIdx hk,
      h.placedAcc_eq_byte hbit]
    exact ⟨⟨h.flight.runnable, h.flight.disciplined, h.flight.tickDue, h.flight.params, rfl, rfl⟩,
      rfl, rfl, ⟨0, rfl, nofun⟩,
      fun j (hj : j < k + 1) => getElem_frame_set h.bytes j (show j ≤ k by omega), h.released⟩

/-- The frame's last bit leads to the commit. -/
theorem Receiving.bitDone_last (h : Receiving p f rs (4, 7) s)
    (hbit : classify tm.d = (f 4).getLsbD (bitPosition 7)) : Received p f rs (s.bitRead tm rest).bitDone := by
  rw [bitDone_eq_goto_uCommit (s := s.bitRead tm rest) h.flight.bitIdx h.flight.byteIdx, h.placedAcc_eq_byte hbit]
  exact ⟨h.flight.congr rfl rfl rfl rfl rfl rfl, rfl, fun j => getElem_frame_set h.bytes j (Fin.le_last j),
    h.released⟩

/-- A bit within the ceilings takes its reads and is placed (43_bit_decoder.md R166). -/
theorem Receiving.run_bit (h : Receiving p f rs (k, i) s) (hwithin : tm.within p = true)
    (hline : s.line = bitLevels tm ++ rest) :
    run (2 * (tm.a + tm.b + tm.d) + 3) s = .next (s.bitRead tm rest).bitDone ∧
      (s.bitRead tm rest).bitDone.line = rest := by
  obtain ⟨⟨ha, hb⟩, hd⟩ : (tm.a < p.timeout ∧ tm.b < p.timeout) ∧ tm.d < fineTimeout p := by
    simpa [BitTiming.within] using hwithin
  exact ⟨h.flight.run_bit h.phase h.c ha hb hd hline, (bitDone_frame _).1⟩

/-- The bits from `ki` to the frame's last, with any timing within the ceilings. -/
theorem Receiving.run_bits {timing : Fin 5 → Fin 8 → BitTiming} {ki : Fin 5 × Fin 8}
    {kis : List (Fin 5 × Fin 8)}
    (hwithin : ∀ k i, (timing k i).within p = true) (hsends : sends timing f)
    (hchain : (ki :: kis).IsChain NextBit) (hlast : (ki :: kis).getLast? = some (4, 7))
    (h : Receiving p f rs ki s)
    (hline : s.line = ((ki :: kis).flatMap fun ki => bitLevels (timing ki.1 ki.2)) ++ rest) :
    ∃ n t, run n s = .next t ∧ Received p f rs t ∧ t.line = rest := by
  induction kis generalizing ki s with
  | nil =>
    obtain rfl : ki = (4, 7) := by simpa using hlast
    obtain ⟨hrun, hrest⟩ := h.run_bit (hwithin 4 7) (by simpa using hline)
    exact ⟨_, _, hrun, h.bitDone_last (hsends 4 7), hrest⟩
  | cons kj kis ih =>
    rw [List.flatMap_cons, List.append_assoc] at hline
    rw [List.isChain_cons_cons] at hchain
    obtain ⟨hnext, hchain⟩ := hchain
    obtain ⟨hbit, hrest⟩ := h.run_bit (hwithin ki.1 ki.2) hline
    obtain ⟨n, t, hrun, ht⟩ := ih hchain (by simpa using hlast) (h.bitDone_next hnext (hsends ki.1 ki.2)) hrest
    exact ⟨_, t, run_trans hbit hrun, ht⟩

/-- The 40 bits of the frame. -/
theorem Receiving.run_frameLevels {timing : Fin 5 → Fin 8 → BitTiming} (h : Receiving p f rs (0, 0) s)
    (hwithin : ∀ k i, (timing k i).within p = true) (hsends : sends timing f)
    (hline : s.line = frameLevels timing ++ rest) :
    ∃ n t, run n s = .next t ∧ Received p f rs t ∧ t.line = rest := by
  rw [frameLevels, bitOrder_eq_cons] at hline
  exact h.run_bits hwithin hsends isChain_bitOrder getLast?_bitOrder hline

/-- The handshake and the 40 bits (41_line_controller.md R127, 44_frame_decoder.md R189). -/
theorem InFlight.run_frame {byte : Option (Fin 5)} {bit : Option (Fin 8)} {idle low high : Nat}
    {timing : Fin 5 → Fin 8 → BitTiming} (h : InFlight p byte bit s) (hs : s.phase = .uIdleWait)
    (hc : s.c = some 0) (hidle : idle < p.timeout) (hlow : low < p.timeout) (hhigh : high < p.timeout)
    (hwithin : ∀ k i, (timing k i).within p = true) (hsends : sends timing f)
    (hline : s.line = handshakeLevels idle low high ++ (frameLevels timing ++ rest)) :
    ∃ n t, run n s = .next t ∧ Received p f s.responses t ∧ t.line = rest := by
  obtain ⟨m, u, hhandshake, hfirst, hbits⟩ : ∃ m u, run m s = .next u ∧ Receiving p f s.responses (0, 0) u ∧
      u.line = frameLevels timing ++ rest :=
    ⟨_, _, h.run_handshake hs hc hidle hlow hhigh hline,
      ⟨⟨h.runnable, h.disciplined, h.tickDue, h.params, rfl, rfl⟩, rfl, rfl, ⟨0, rfl, nofun⟩, nofun,
        rfl, rfl, rfl⟩, rfl⟩
  obtain ⟨n, t, hrun, ht⟩ := hfirst.run_frameLevels hwithin hsends hbits
  exact ⟨m + n, t, run_trans hhandshake hrun, ht⟩

end Waveform

/-- Settles O57: the handshake, the 40 bits and the commit of the bytes they send. -/
theorem frameOnTheLineIsDecoded : Obligations.FrameOnTheLineIsDecoded := by
  intro s i l h timing f rest hr ht hh hd hi hl hhigh hwithin hsends hline
  have hrunnable : s.runnable = true := runnable_iff.mpr (ready_iff.mp hr).1
  have haccepted : InFlight s.params s.byteIdx s.bitIdx
      { s with abort := some .noAbort, phase := .uIdleWait, c := some 0 } :=
    ⟨hrunnable, hd, ht, rfl, rfl, rfl⟩
  obtain ⟨n, t, hrun, ⟨hflight, hp, hbytes, hdir, hout, hresponses⟩, hrest⟩ :=
    haccepted.run_frame rfl rfl hi hl hhigh hwithin hsends (hline.trans (List.append_assoc _ _ _))
  have hcommit := commitWritesTheCacheThenChecks t _ _ _ _ _ hp (frame_eq_bytes hbytes)
  have hend : run 1 t = .next (sequencerStep t) := hflight.run_succ (by simp [hp]) 0
  refine ⟨_, n + 1, _, updateIsAccepted s hr hh, run_trans hrun hend, ?_⟩
  rw [hcommit, ← show t.responses = s.responses from hresponses]
  exact ⟨rfl, (runnable_iff.mp hflight.runnable).2, hrest, rfl, rfl, rfl, asInt16_signCorrect _, rfl, rfl, rfl,
    hdir, hout⟩

end Sys2Proof.Machine

namespace Sys2Proof.Machine

/-! ### Several handles (60_exceptions.md R214) -/

theorem onExclusiveLines_of_exclusive {cores : List State} (k : Host.Outcome (List State) Fault Refusal)
    (h : exclusiveLines cores = true) : onExclusiveLines cores k = k :=
  if_pos h

theorem onExclusiveLines_of_shared {cores : List State} (k : Host.Outcome (List State) Fault Refusal)
    (h : ¬exclusiveLines cores = true) : onExclusiveLines cores k = .refused .sharedLine :=
  if_neg h

theorem getElem?_set_self_of_some {cores : List State} {k : Nat} {s : State} (hk : cores[k]? = some s)
    (t : State) : (cores.set k t)[k]? = some t :=
  List.getElem?_set_self (List.getElem?_eq_some_iff.mp hk).1

/-- Changing one handle keeps every line to one handle exactly when the line it is on then is no other's. -/
theorem exclusiveLines_set_iff {cores : List State} {k : Nat} {s t : State} (hx : exclusiveLines cores = true)
    (hk : cores[k]? = some s) :
    exclusiveLines (cores.set k t) = true ↔
      ∀ (j : Nat) (r : State) (p : Byte), j ≠ k → cores[j]? = some r → r.pin = some p → t.pin ≠ some p := by
  have hset : (cores.set k t)[k]? = some t := getElem?_set_self_of_some hk t
  have hother : ∀ {j : Nat}, j ≠ k → (cores.set k t)[j]? = cores[j]? := fun hj => List.getElem?_set_ne hj.symm
  rw [exclusiveLines_iff]
  constructor
  · intro h j r p hj hr hrp
    exact h j k r t p hj ((hother hj).trans hr) hset hrp
  · intro h i j a b p hij ha hb hap hbp
    obtain rfl | hi := eq_or_ne i k
    · cases hset.symm.trans ha
      exact h j b p hij.symm ((hother hij.symm).symm.trans hb) hbp hap
    · rw [hother hi] at ha
      obtain rfl | hj := eq_or_ne j k
      · cases hset.symm.trans hb
        exact h i a p hi ha hap hbp
      · rw [hother hj] at hb
        exact exclusiveLines_iff.mp hx i j a b p hij ha hb hap hbp

/-- Settles O60: the two clauses are the two sides of `exclusiveLines_set_iff`. -/
theorem sharedLineIsRefused : Obligations.SharedLineIsRefused := by
  intro cores k s t hx hk hs
  rw [stepInstance_of_next hx hk hs]
  constructor
  · rintro ⟨j, r, p, hj, hr, hrp, htp⟩
    exact onExclusiveLines_of_shared _ fun h => (exclusiveLines_set_iff hx hk).mp h j r p hj hr hrp htp
  · intro hfree
    exact onExclusiveLines_of_exclusive _ ((exclusiveLines_set_iff hx hk).mpr hfree)

/-- Settles O50: core `k` is the only one set, whether or not there is one. -/
theorem instancesAreIndependent : Obligations.InstancesAreIndependent := by
  intro cores cores' k h
  obtain ⟨hx, ⟨hnone, rfl⟩ | ⟨s, t, hk, hs, rfl, hx'⟩⟩ := stepInstance_next h
  · exact ⟨rfl, fun _ _ => rfl, fun _ hk => (nomatch hnone.symm.trans hk), hx, hx⟩
  · refine ⟨List.length_set, fun j hj => List.getElem?_set_ne hj.symm, fun s' hk' => ?_, hx, hx'⟩
    cases hk.symm.trans hk'
    exact ⟨t, hs, getElem?_set_self_of_some hk t⟩

/-! ### The failure channel of UPDATE (60_exceptions.md R205, R206) -/

/-- Settles O27: `fail` is the end of an UPDATE with the result false, after the write of ABORT. -/
theorem failEndsTheUpdate : Obligations.FailEndsTheUpdate := fun _ _ => rfl

/-- A failure raises no fault and ends at IDLE, so a running core is ready after it. -/
theorem ready_fail {s : State} (h : s.runnable = true) (reason : Abort) : (s.fail reason).ready = true :=
  ready_iff.mpr ⟨runnable_iff.mp h, rfl⟩

/-- Settles O28: the failed UPDATE leaves a ready core with its handle, which accepts the next one. -/
theorem failureLeavesTheCoreReady : Obligations.FailureLeavesTheCoreReady := by
  intro s reason hr hh
  have hready := ready_fail hr reason
  exact ⟨hready, _, updateIsAccepted (s.fail reason) hready hh, rfl, (runnable_iff.mp hr).2⟩

end Sys2Proof.Machine

namespace Sys2Proof.Machine

/-! ### Power-on (70_reset_and_hazards.md R230) -/

/-- With a command's word placed where the step fetches next, the step is that command's meaning. -/
theorem step_withFetchWord_encode (s : State) (i : Instr) :
    step (s.withFetchWord 16 (encode i).toNat) = exec i s := by
  have hword : tableWord 16 (encode i).toNat = encode i := by
    rw [tableWord, Nat.mod_eq_of_lt (encode i).isLt, BitVec.ofNat_toNat, BitVec.setWidth_eq]
  refine stepRunsThePresentedCommand.2 s 16 _ i (decodeTableWord_eq_some.mpr ?_)
  rw [hword, decode_encode]

/-- The configuration of power-on has a meaning (70_reset_and_hazards.md R233), and nothing is in flight. -/
theorem ready_reset : State.reset.ready = true :=
  ready_iff.mpr ⟨⟨decide_eq_true (Nat.le_add_left 10 _), rfl⟩, rfl⟩

/-- Settles O8: the core is ready at power-on and has no handle, which only CONSTRUCT does without. -/
theorem powerOnAcceptsOnlyConstruct : Obligations.PowerOnAcceptsOnlyConstruct := by
  refine ⟨fun pin => ?_, fun i hi => ?_⟩
  · rw [step_withFetchWord_encode, constructResetsTheHandle pin _ ready_reset]
    exact ⟨_, rfl, rfl, rfl, rfl⟩
  · rw [step_withFetchWord_encode, exec_of_no_handle ready_reset rfl hi]
    exact ⟨_, rfl, rfl, rfl⟩

end Sys2Proof.Machine

namespace Sys2Proof.Machine

/-! ### The line reads of an UPDATE (70_reset_and_hazards.md R241)

`Polls` says what the procedures of UPDATE keep and how many line reads they make, and `Within` says it of a
procedure that may fail. Both compose as the pseudocode does. -/

/-- What no procedure of UPDATE changes: the configuration, PIN, FAULT, the host's moves and the responses. -/
def State.kept (s : State) : Parameters × Option Byte × List ModelFault × List HostMove × List Response :=
  (s.params, s.pin, s.fault, s.host, s.responses)

theorem kept_eq_iff {s t : State} :
    t.kept = s.kept ↔ t.params = s.params ∧ t.pin = s.pin ∧ t.fault = s.fault ∧ t.host = s.host ∧
      t.responses = s.responses := by
  simp [State.kept]

/-- From `s` to `t` the core keeps DIR and what UPDATE does not change, records no failed idle wait, and makes
at least `a` and at most `b` line reads, `b` being a bound in the configuration. -/
structure Polls (a : Nat) (b : Parameters → Nat) (s t : State) : Prop where
  kept : t.kept = s.kept
  dir : t.dir = s.dir
  abort : t.abort = some .idleTimeout → s.abort = some .idleTimeout
  events : ∃ es, t.events = s.events ++ es ∧ a ≤ readCount es ∧ readCount es ≤ b s.params

/-- A procedure that answers `r` makes at most `b` line reads, and at least `a` where it succeeds. -/
def Within (a : Nat) (b : Parameters → Nat) (s : State) (r : Bool × State) : Prop :=
  match r with
  | (true, u) => Polls a b s u
  | (false, u) => Polls 0 b s u

section Polls

variable {a a' : Nat} {b b' : Parameters → Nat} {s t u : State} {r : Bool × State}

/-- Calls that neither write ABORT nor change what is kept count by their events. -/
theorem Polls.of_events (es : List Event) (hkept : t.kept = s.kept) (hdir : t.dir = s.dir)
    (habort : t.abort = s.abort) (hevents : t.events = s.events ++ es) :
    Polls (readCount es) (fun _ => readCount es) s t :=
  ⟨hkept, hdir, habort ▸ id, es, hevents, Nat.le_refl _, Nat.le_refl _⟩

/-- Updates of the other elements make no read. -/
theorem Polls.quiet (hkept : t.kept = s.kept) (hdir : t.dir = s.dir) (habort : t.abort = s.abort)
    (hevents : t.events = s.events) : Polls 0 (fun _ => 0) s t :=
  .of_events [] hkept hdir habort (hevents.trans (List.append_nil _).symm)

theorem Polls.params (h : Polls a b s t) : t.params = s.params := (kept_eq_iff.mp h.kept).1

theorem Polls.mono (h : Polls a b s t) (ha : a' ≤ a) (hb : b s.params ≤ b' s.params) : Polls a' b' s t := by
  obtain ⟨es, hes, hleast, hmost⟩ := h.events
  exact ⟨h.kept, h.dir, h.abort, es, hes, ha.trans hleast, hmost.trans hb⟩

theorem Polls.trans (h : Polls a b s t) (h' : Polls a' b' t u) :
    Polls (a + a') (fun p => b p + b' p) s u := by
  obtain ⟨es, hes, hleast, hmost⟩ := h.events
  obtain ⟨fs, hfs, hleast', hmost'⟩ := h'.events
  rw [h.params] at hmost'
  refine ⟨h'.kept.trans h.kept, h'.dir.trans h.dir, h.abort ∘ h'.abort, es ++ fs, ?_, ?_, ?_⟩
  · rw [hfs, hes, List.append_assoc]
  · rw [readCount_append]
    exact Nat.add_le_add hleast hleast'
  · rw [readCount_append]
    exact Nat.add_le_add hmost hmost'

/-- What is said of a DIR that stays can be said of any. -/
theorem Polls.withDir (h : Polls a b s t) (m : Option Mode) : Polls a b { s with dir := m } { t with dir := m } :=
  ⟨h.kept, rfl, h.abort, h.events⟩

/-- An outcome recorded in ABORT that is not the idle wait's. -/
theorem Polls.withAbort {reason : Abort} (h : Polls a b s u) (hreason : reason ≠ .idleTimeout) :
    Polls a b s { u with abort := some reason } :=
  ⟨h.kept, h.dir, fun e => absurd (Option.some.inj e) hreason, h.events⟩

theorem Polls.within_failing {reason : Abort} (h : Polls a b s u) (hreason : reason ≠ .idleTimeout) :
    Within a' b s (failing reason u) :=
  (h.mono (Nat.zero_le a) (Nat.le_refl _)).withAbort hreason

theorem Within.mono (h : Within a b s r) (ha : a' ≤ a) (hb : b s.params ≤ b' s.params) : Within a' b' s r := by
  obtain ⟨_ | _, u⟩ := r
  · exact Polls.mono h (Nat.le_refl 0) hb
  · exact Polls.mono h ha hb

/-- Reads before a procedure count towards it. -/
theorem Polls.within (h : Polls a b s t) (hr : Within a' b' t r) :
    Within (a + a') (fun p => b p + b' p) s r := by
  obtain ⟨_ | _, u⟩ := r
  · exact (h.trans hr).mono (Nat.zero_le _) (Nat.le_refl _)
  · exact h.trans hr

/-- Updates before a procedure that make no call and leave what it keeps. -/
theorem Within.of_quiet (h : Within a b t r) (hkept : t.kept = s.kept) (hdir : t.dir = s.dir)
    (habort : t.abort = s.abort) (hevents : t.events = s.events) : Within a b s r :=
  ((Polls.quiet hkept hdir habort hevents).within h).mono (Nat.zero_add a).ge (Nat.zero_add _).le

theorem Within.andThen {next : State → Bool × State} (h : Within a b s r)
    (hnext : ∀ u, Within a' b' u (next u)) : Within (a + a') (fun p => b p + b' p) s (andThen r next) := by
  obtain ⟨_ | _, u⟩ := r
  · exact Polls.mono h (Nat.le_refl 0) (Nat.le_add_right _ _)
  · exact Polls.within h (hnext u)

theorem Within.orFail {reason : State → Abort} (h : Within a b s r) (hreason : ∀ u, reason u ≠ .idleTimeout) :
    Within a b s (orFail reason r) := by
  obtain ⟨_ | _, u⟩ := r
  · exact Polls.within_failing h (hreason u)
  · exact h

/-- Whichever way a procedure ends, it keeps what `Polls` says. -/
theorem Within.polls (h : Within a b s r) : Polls 0 b s r.2 := by
  obtain ⟨_ | _, u⟩ := r
  · exact h
  · exact Polls.mono h (Nat.zero_le a) (Nat.le_refl _)

theorem Within.events (h : Within a b s r) :
    ∃ es, r.2.events = s.events ++ es ∧ readCount es ≤ b s.params ∧ (r.1 = true → a ≤ readCount es) := by
  obtain ⟨_ | _, u⟩ := r
  · obtain ⟨es, hes, -, hmost⟩ := Polls.events h
    exact ⟨es, hes, hmost, nofun⟩
  · obtain ⟨es, hes, hleast, hmost⟩ := Polls.events h
    exact ⟨es, hes, hmost, fun _ => hleast⟩

end Polls

/-! #### The two loops -/

section Loops

variable {s t : State} {r : Bool × State} {l : Level} {n : Nat}

/-- The read that ends a wait or a measurement, which may have `n` polls left after it. -/
theorem Polls.of_last_read (hkept : t.kept = s.kept) (hdir : t.dir = s.dir) (habort : t.abort = s.abort)
    (hevents : t.events = s.events ++ [.evRead l]) : Polls 1 (fun _ => n + 1) s t :=
  (Polls.of_events _ hkept hdir habort hevents).mono (Nat.le_refl 1) (Nat.le_add_left 1 n)

/-- A poll that goes on is one line read more than the rest of its loop makes. -/
theorem Within.of_poll {us : Nat} (h : Within 1 (fun _ => n) t r) (hkept : t.kept = s.kept) (hdir : t.dir = s.dir)
    (habort : t.abort = s.abort) (hevents : t.events = s.events ++ [.evRead l, .evDelay us]) :
    Within 1 (fun _ => n + 1) s r :=
  ((Polls.of_events _ hkept hdir habort hevents).within h).mono (Nat.le_add_left 1 _) (Nat.add_comm 1 n).le

/-- `n` polls of `WaitForPin` make at most `n` reads, and a match is one (42_sampler.md R140). -/
theorem within_waitLoop (target : Level) (n : Nat) (s : State) :
    Within 1 (fun _ => n) s (waitLoop target n s) := by
  induction n generalizing s with
  | zero => exact Polls.quiet rfl rfl rfl rfl
  | succ n ih =>
    rw [waitLoop]
    split
    · exact Polls.of_last_read rfl rfl rfl rfl
    · exact (ih _).of_poll rfl rfl rfl (List.append_assoc _ _ _)

/-- The same of a measurement, as the bit at index `i` uses it (43_bit_decoder.md R160). -/
theorem within_measureLoop (i : Fin 8) (n : Nat) (s : State) :
    Within 1 (fun _ => n) s (placed i (measureLoop n s)) := by
  induction n generalizing s with
  | zero => exact (Polls.quiet (s := s) rfl rfl rfl rfl).within_failing nofun
  | succ n ih =>
    rw [measureLoop]
    split
    · exact Polls.of_last_read rfl rfl rfl rfl
    · exact (ih _).of_poll rfl rfl rfl (List.append_assoc _ _ _)

/-- `WaitForPin` makes at most TIMEOUT reads (42_sampler.md R147). -/
theorem within_waitForPin (target : Level) (s : State) :
    Within 1 Parameters.timeout s (waitForPin target s) :=
  .of_quiet ((within_waitLoop target _ { s with c := some 0 }).mono (Nat.le_refl 1) (Nat.le_refl _)) rfl rfl rfl rfl

/-- `MeasureHigh` makes at most FINE_TIMEOUT reads (43_bit_decoder.md R161). -/
theorem within_measureHigh (i : Fin 8) (s : State) : Within 1 fineTimeout s (placed i (measureHigh s)) :=
  .of_quiet ((within_measureLoop i _ { s with d := some 0 }).mono (Nat.le_refl 1) (Nat.le_refl _)) rfl rfl rfl rfl

end Loops

/-! #### The procedures above them -/

/-- A call of `WaitForPin`, with the updates before it and any label but the idle wait's. -/
theorem within_wait {s t : State} (target : Level) {reason : State → Abort}
    (hreason : ∀ u, reason u ≠ .idleTimeout) (hkept : t.kept = s.kept) (hdir : t.dir = s.dir)
    (habort : t.abort = s.abort) (hevents : t.events = s.events) :
    Within 1 Parameters.timeout s (orFail reason (waitForPin target t)) :=
  ((within_waitForPin target t).of_quiet hkept hdir habort hevents).orFail hreason

/-- The most line reads of one bit: its two waits and its measurement (43_bit_decoder.md R164). -/
def bitReadBound (p : Parameters) : Nat := p.timeout + (p.timeout + fineTimeout p)

theorem within_readBit (i : Fin 8) (s : State) : Within 3 bitReadBound s (readBit i s) := by
  rw [readBit_eq]
  exact Within.mono (.andThen (within_wait .low (fun _ => nofun) rfl rfl rfl rfl) fun _ =>
    .andThen (within_wait .high (fun _ => nofun) rfl rfl rfl rfl) fun _ =>
      .of_quiet (within_measureHigh i _) rfl rfl rfl rfl) (Nat.le_refl 3) (Nat.le_refl _)

theorem within_readBits (is : List (Fin 8)) (s : State) :
    Within (is.length * 3) (fun p => is.length * bitReadBound p) s (readBits is s) := by
  induction is generalizing s with
  | nil => exact Polls.mono (.quiet rfl rfl rfl rfl) (Nat.zero_mul 3).le (Nat.zero_le _)
  | cons i is ih =>
    rw [readBits_cons]
    refine ((within_readBit i s).andThen ih).mono ?_ ?_
    · rw [List.length_cons, Nat.succ_mul, Nat.add_comm]
    · rw [List.length_cons, Nat.succ_mul, Nat.add_comm]

theorem within_readByte (s : State) : Within 24 (fun p => 8 * bitReadBound p) s (readByte s) :=
  (within_readBits [0, 1, 2, 3, 4, 5, 6, 7] { s with acc := some 0 }).of_quiet rfl rfl rfl rfl

theorem within_readBytes (ks : List (Fin 5)) (s : State) :
    Within (ks.length * 24) (fun p => ks.length * (8 * bitReadBound p)) s (readBytes ks s) := by
  induction ks generalizing s with
  | nil => exact Polls.mono (.quiet rfl rfl rfl rfl) (Nat.zero_mul 24).le (Nat.zero_le _)
  | cons k ks ih =>
    rw [readBytes_cons]
    have hbyte := (within_readByte { s with byteIdx := some k }).of_quiet (s := s) rfl rfl rfl rfl
    refine (hbyte.andThen fun u => (ih (u.storeByte k)).of_quiet rfl rfl rfl rfl).mono ?_ ?_
    · rw [List.length_cons, Nat.succ_mul, Nat.add_comm]
    · rw [List.length_cons, Nat.succ_mul ks.length, Nat.add_comm]

theorem within_ack (s : State) : Within 2 (fun p => p.timeout + p.timeout) s (ack s) := by
  rw [ack_eq]
  exact Within.mono (.andThen (within_wait .low (fun _ => nofun) rfl rfl rfl rfl) fun _ =>
    within_wait .high (fun _ => nofun) rfl rfl rfl rfl) (Nat.le_refl 2) (Nat.le_refl _)

theorem within_commit (s : State) : Within 0 (fun _ => 0) s (commit s) := by
  have hcache : Polls 0 (fun _ => 0) s s.writeCache := .quiet rfl rfl rfl rfl
  rw [commit, commitResult]
  split
  · exact hcache.withAbort nofun
  · exact hcache.within_failing nofun

/-- The wake pulse and the release make no read and leave DIR at IN (41_line_controller.md R122, R123). -/
theorem polls_pulse (s : State) :
    Polls 0 (fun _ => 0) { s with dir := some .input } (release (wakePulse s)) :=
  Polls.of_events [.evMode .output, .evWrite .low, .evDelay wakeUs, .evMode .input, .evDelay settleUs]
    (by simp [State.kept, release, wakePulse]) (by simp [release]) (by simp [release, wakePulse])
    (by simp [release, wakePulse])

/-- UPDATE from its wake pulse on: a success makes 2 reads at least in `Ack` and 3 in each bit. -/
theorem within_afterIdle (s : State) :
    Within 122 (fun p => 2 * p.timeout + 40 * bitReadBound p) { s with dir := some .input }
      (andThen (andThen (ack (release (wakePulse s))) (readBytes [0, 1, 2, 3, 4])) fun u =>
        commit (u.goto .uCommit)) := by
  refine Within.mono (Polls.within (polls_pulse s) <|
    .andThen (.andThen (within_ack _) (within_readBytes _)) fun _ =>
      .of_quiet (within_commit _) rfl rfl rfl rfl) (Nat.le_refl 122) ?_
  simp only [List.length_cons, List.length_nil]
  omega

/-- UPDATE ends in the idle wait's timeout, with DIR as it was, or goes through the release, which leaves DIR
at IN (10_state.md R24). -/
theorem updateSequence_cases (s : State) :
    (∃ u, updateSequence s = failing .idleTimeout u ∧ Polls 0 Parameters.timeout s u) ∨
      Within 123 updateReadBound { s with dir := some .input } (updateSequence s) := by
  have hidle := (within_waitForPin .high (s.goto .uIdleWait)).of_quiet (s := s) rfl rfl rfl rfl
  rw [updateSequence_eq, receive, idleCheck_eq]
  generalize waitForPin .high (s.goto .uIdleWait) = r at hidle ⊢
  obtain ⟨_ | _, u⟩ := r
  · exact .inl ⟨u, rfl, hidle⟩
  · refine .inr ((Polls.within (Polls.withDir hidle _) (within_afterIdle u)).mono (Nat.le_refl 123) ?_)
    simp only [updateReadBound, bitReadBound]
    omega

/-! #### The end of an UPDATE -/

theorem kept_finish {s u : State} (h : u.kept = s.kept) (b : Bool) :
    (u.finish b).kept = (s.respond (.updateResult b)).kept := by
  obtain ⟨hparams, hpin, hfault, hhost, hresponses⟩ := kept_eq_iff.mp h
  exact kept_eq_iff.mpr ⟨hparams, hpin, hfault, hhost, congrArg (· ++ [Response.updateResult b]) hresponses⟩

/-- UPDATE adds its one response to what it keeps, and its reads lie between the bounds of R241. -/
theorem updateCall_answers (s : State) :
    ∃ b es, (updateCall s).kept = (s.respond (.updateResult b)).kept ∧ (updateCall s).result = some b ∧
      (updateCall s).dir = (if (updateCall s).abort = some .idleTimeout then s.dir else some .input) ∧
      (updateCall s).events = s.events ++ es ∧ readCount es ≤ updateReadBound s.params ∧
      (b = true → 123 ≤ readCount es) := by
  rw [updateCall]
  obtain ⟨u, hu, hidle⟩ | hrest := updateSequence_cases { s with abort := some .noAbort }
  · obtain ⟨es, hevents, -, hmost⟩ := hidle.events
    have hbound : s.params.timeout ≤ updateReadBound s.params := by
      unfold updateReadBound
      omega
    rw [hu]
    exact ⟨false, es, kept_finish hidle.kept false, rfl, hidle.dir, hevents, hmost.trans hbound, nofun⟩
  · have hpolls := hrest.polls
    obtain ⟨es, hevents, hmost, hleast⟩ := hrest.events
    refine ⟨_, es, kept_finish hpolls.kept _, rfl, hpolls.dir.trans ?_, hevents, hmost, hleast⟩
    exact (if_neg fun habort => nomatch hpolls.abort habort).symm

/-- Settles O55: the steps end in the state of the pseudocode, whose reads are bounded on both sides. -/
theorem updateAlwaysResponds : Obligations.UpdateAlwaysResponds := by
  intro s hr ht hh hd
  obtain ⟨t0, n, haccept, -, hrun⟩ := updateRunsTheRulesPseudocode s hr ht hh hd
  obtain ⟨b, es, hkept, hresult, hdir, hreads⟩ := updateCall_answers s
  obtain ⟨-, -, hfault, -, hresponses⟩ := kept_eq_iff.mp hkept
  exact ⟨t0, n, updateCall s, es, b, haccept, hrun, rfl, hfault.trans (ready_iff.mp hr).1.2, hdir, hresult,
    hresponses, hreads⟩

end Sys2Proof.Machine

namespace Sys2Proof.Machine

/-! ### A host that constructs and updates (70_reset_and_hazards.md R242) -/

theorem endedSuccessfully_iff {s : State} :
    s.endedSuccessfully = true ↔ s.host = [] ∧ s.phase = .idle ∧ s.fault = [] := by
  simp [State.endedSuccessfully, busy_eq_false, and_assoc]

/-- The host's next command is run while none is in flight. -/
theorem step_issue_encode {s : State} {i : Instr} {rest : List HostMove}
    (hh : s.host = .issue (encode i) :: rest) (hidle : s.phase = .idle) :
    step s = exec i { s with host := rest } :=
  stepRunsThePresentedCommand.1 s _ i rest (.inr ⟨hh, hidle⟩) (decode_encode i)

/-- A host whose last command is UPDATE ends its run successfully with the response to it. -/
theorem run_last_update {s : State} (hr : s.ready = true) (ht : s.tickDue = false) (hh : s.handleExists = true)
    (hhost : s.host = [.issue (encode .update)]) :
    ∃ n t b, run n s = .next t ∧ t.endedSuccessfully = true ∧ t.pin = s.pin ∧
      t.responses = s.responses ++ [.updateResult b] ∧ t.result = some b := by
  obtain ⟨⟨hp, hf⟩, hidle⟩ := ready_iff.mp hr
  have hready : State.ready { s with host := [] } = true := ready_iff.mpr ⟨⟨hp, hf⟩, hidle⟩
  obtain ⟨t0, n, haccept, -, hrun⟩ := updateRunsTheRulesPseudocode { s with host := [] } hready ht hh rfl
  obtain ⟨b, _, hkept, hresult, _⟩ := updateCall_answers { s with host := [] }
  obtain ⟨-, hpin, hfault, hleft, hresponses⟩ := kept_eq_iff.mp hkept
  have hstep : step s = .next t0 := (step_issue_encode hhost hidle).trans haccept
  refine ⟨n + 1, _, b, (run_succ hstep).trans hrun, ?_, hpin, hresponses, hresult⟩
  exact endedSuccessfully_iff.mpr ⟨hleft, rfl, hfault.trans hf⟩

/-- Settles O56: one step runs CONSTRUCT and leaves a ready core with a handle, whose host has UPDATE left. -/
theorem constructThenUpdateEndsSuccessfully : Obligations.ConstructThenUpdateEndsSuccessfully := by
  intro s pin hr ht hhost
  obtain ⟨⟨hp, hf⟩, hidle⟩ := ready_iff.mp hr
  have hready : State.ready { s with host := [.issue (encode .update)] } = true :=
    ready_iff.mpr ⟨⟨hp, hf⟩, hidle⟩
  have hstep : step s = .next (State.construct pin { s with host := [.issue (encode .update)] }) :=
    (step_issue_encode hhost hidle).trans (whenFree_of_ready hready)
  have hconstructed : (State.construct pin { s with host := [.issue (encode .update)] }).ready = true :=
    ready_iff.mpr ⟨⟨hp, hf⟩, rfl⟩
  obtain ⟨n, t, b, hrun, hend, hpin, hresponses, hresult⟩ := run_last_update hconstructed ht rfl rfl
  exact ⟨n + 1, t, b, (run_succ hstep).trans hrun, hend, hpin, hresponses.trans (List.append_assoc _ _ _),
    hresult⟩

end Sys2Proof.Machine
